-- ==== Sys2Proof/Word.lean ====
section
/-! DEFINITION. The word types of the codec (00_scope.md R7, R8). Every value is unsigned. -/

namespace Sys2Proof

/-- A byte (R8). -/
abbrev Byte := BitVec 8

/-- A 16-bit value: ports, checksums, lengths (10_state.md R22). -/
abbrev Half := BitVec 16

/-- A 32-bit word (00_scope.md R10). -/
abbrev Word := BitVec 32

end Sys2Proof
end

