-- ==== Sys2Proof/Config.lean ====
section
/-! DEFINITION. The parameters of the block and the free values of the model (00_scope.md R6;
93_implementation_defined.md I4, I6, I7, I15, I16). The fixed sizes of R6 stand in the model as the numbers
of its pseudocode: `HDR_BYTES` is 20, `MAX_PAYLOAD_BYTES` 1020 and `OUT_CAPACITY` 1040. -/

namespace Sys2Proof

/-- What a payload whose length is no multiple of 4 becomes (R6, 40_serializer.md R102). -/
inductive UnalignedPayload where
  | padZero
  | legacy
deriving DecidableEq, Repr

/-- In which byte order the digest becomes an integer (R6, 41_checksum.md R140). -/
inductive DigestIntOrder where
  | big
  | little
deriving DecidableEq, Repr

/-- The three open parameters of the block, fixed when it is built (R6, 70_reset_and_hazards.md R231). -/
structure Params where
  maxInBytes       : Nat
  unalignedPayload : UnalignedPayload
  digestIntOrder   : DigestIntOrder
deriving DecidableEq, Repr

/-- The default of every parameter (R6). -/
def Params.default : Params where
  maxInBytes := 2048
  unalignedPayload := .padZero
  digestIntOrder := .big

/-- `MAX_IN_BYTES` must be at least 1040 (R6). -/
abbrev Params.Legal (p : Params) : Prop := 1040 ≤ p.maxInBytes

/-- FREE VALUE (log 7). What byte `i` of `IN` holds when the host never wrote it. -/
opaque Config.inPowerOn (i : Nat) : Byte

/-- FREE VALUE (log 5, log 6). `w` bits for the place `slot` of the free draw number `draw`. -/
opaque Config.freeBits (w draw slot : Nat) : BitVec w

/-- FREE VALUE (log 5). A byte sequence for the free draw number `draw`. -/
opaque Config.freeBytes (draw : Nat) : List Byte

end Sys2Proof
end

