-- ==== Sys2Proof/Machine/Bytes.lean ====
section
/-! DEFINITION. Byte sequences and byte order (00_scope.md R8, 20_memory.md R52, R55). -/

namespace Sys2Proof.Machine

/-- `zeros(k)` (R8). -/
def zeros (k : Nat) : List Byte := List.replicate k 0

/-- `s[i]` (R8), used only where the rule has bounded `i` by the length. -/
def byteAt (s : List Byte) (i : Nat) : Byte := s.getD i 0

/-- `be16(x, y) = {x, y}` (R8). -/
def be16 (x y : Byte) : Half := x ++ y

/-- `be32(w, x, y, z) = {w, x, y, z}` (R8). -/
def be32 (w x y z : Byte) : Word := w ++ x ++ y ++ z

/-- `bytes_be32(v)`: the most significant byte first (R8, R52). -/
def bytesBe32 (v : Word) : List Byte :=
  [v.extractLsb 31 24, v.extractLsb 23 16, v.extractLsb 15 8, v.extractLsb 7 0]

/-- `le32(w, x, y, z) = {z, y, x, w}` (R8, R55). -/
def le32 (w x y z : Byte) : Word := z ++ y ++ x ++ w

/-- `bytes_le32(v)`: the least significant byte first (R8). -/
def bytesLe32 (v : Word) : List Byte :=
  [v.extractLsb 7 0, v.extractLsb 15 8, v.extractLsb 23 16, v.extractLsb 31 24]

/-- `bytes_le64(v)`: eight bytes, the least significant first (R8). -/
def bytesLe64 (v : BitVec 64) : List Byte :=
  [v.extractLsb 7 0, v.extractLsb 15 8, v.extractLsb 23 16, v.extractLsb 31 24,
   v.extractLsb 39 32, v.extractLsb 47 40, v.extractLsb 55 48, v.extractLsb 63 56]

/-- The zeroed copy of a byte sequence: bytes 14 and 15 are 0x00 (30_encoding.md R74). -/
def zeroedCopy (s : List Byte) : List Byte := (s.set 14 0).set 15 0

end Sys2Proof.Machine
end

