-- ==== Sys2Proof/Machine/Md5.lean ====
section
/-! DEFINITION. The checksum engine: MD5 (41_checksum.md R142 to R149), `Chk` (R140) and `ChkZ` (R141). -/

namespace Sys2Proof.Machine

/-- The chaining words of the engine, set up afresh for every checksum (R143, 10_state.md R37). -/
structure Chain where
  a : Word
  b : Word
  c : Word
  d : Word
deriving DecidableEq, Repr

/-- The chaining words each MD5 computation starts with (R143). -/
def Chain.start : Chain where
  a := 0x67452301#32
  b := 0xEFCDAB89#32
  c := 0x98BADCFE#32
  d := 0x10325476#32

/-- The least `k` with `(n + 1 + k) mod 64 = 56` (R144). -/
def padZeros (n : Nat) : Nat := (119 - n % 64) % 64

/-- `pad(m)` (R144). -/
def pad (m : List Byte) : List Byte :=
  m ++ [0x80] ++ zeros (padZeros m.length) ++ bytesLe64 (BitVec.ofNat 64 (8 * m.length))

/-- The first `n` blocks of 64 bytes (R142). -/
def blocksOf : Nat → List Byte → List (List Byte)
  | 0, _ => []
  | n + 1, s => s.take 64 :: blocksOf n (s.drop 64)

/-- The message words of a block, little-endian (R144). -/
def wordsOf : List Byte → List Word
  | w :: x :: y :: z :: rest => le32 w x y z :: wordsOf rest
  | _ => []

/-- `K[0..15]` (R145). -/
def tableK0 : List Word :=
  [0xD76AA478#32, 0xE8C7B756#32, 0x242070DB#32, 0xC1BDCEEE#32,
   0xF57C0FAF#32, 0x4787C62A#32, 0xA8304613#32, 0xFD469501#32,
   0x698098D8#32, 0x8B44F7AF#32, 0xFFFF5BB1#32, 0x895CD7BE#32,
   0x6B901122#32, 0xFD987193#32, 0xA679438E#32, 0x49B40821#32]

/-- `K[16..31]` (R145). -/
def tableK1 : List Word :=
  [0xF61E2562#32, 0xC040B340#32, 0x265E5A51#32, 0xE9B6C7AA#32,
   0xD62F105D#32, 0x02441453#32, 0xD8A1E681#32, 0xE7D3FBC8#32,
   0x21E1CDE6#32, 0xC33707D6#32, 0xF4D50D87#32, 0x455A14ED#32,
   0xA9E3E905#32, 0xFCEFA3F8#32, 0x676F02D9#32, 0x8D2A4C8A#32]

/-- `K[32..47]` (R145). -/
def tableK2 : List Word :=
  [0xFFFA3942#32, 0x8771F681#32, 0x6D9D6122#32, 0xFDE5380C#32,
   0xA4BEEA44#32, 0x4BDECFA9#32, 0xF6BB4B60#32, 0xBEBFBC70#32,
   0x289B7EC6#32, 0xEAA127FA#32, 0xD4EF3085#32, 0x04881D05#32,
   0xD9D4D039#32, 0xE6DB99E5#32, 0x1FA27CF8#32, 0xC4AC5665#32]

/-- `K[48..63]` (R145). -/
def tableK3 : List Word :=
  [0xF4292244#32, 0x432AFF97#32, 0xAB9423A7#32, 0xFC93A039#32,
   0x655B59C3#32, 0x8F0CCC92#32, 0xFFEFF47D#32, 0x85845DD1#32,
   0x6FA87E4F#32, 0xFE2CE6E0#32, 0xA3014314#32, 0x4E0811A1#32,
   0xF7537E82#32, 0xBD3AF235#32, 0x2AD7D2BB#32, 0xEB86D391#32]

/-- The constants `K[0..63]` (R145). -/
def tableK : List Word := tableK0 ++ tableK1 ++ tableK2 ++ tableK3

/-- The rotation amounts of each group of sixteen steps, repeated four times each (R146). -/
def tableS : List Nat :=
  [7, 12, 17, 22, 7, 12, 17, 22, 7, 12, 17, 22, 7, 12, 17, 22] ++
  [5, 9, 14, 20, 5, 9, 14, 20, 5, 9, 14, 20, 5, 9, 14, 20] ++
  [4, 11, 16, 23, 4, 11, 16, 23, 4, 11, 16, 23, 4, 11, 16, 23] ++
  [6, 10, 15, 21, 6, 10, 15, 21, 6, 10, 15, 21, 6, 10, 15, 21]

/-- The step function `F` of step `i` (R147). -/
def stepF (i : Nat) (b c d : Word) : Word :=
  if i < 16 then (b &&& c) ||| (~~~b &&& d)
  else if i < 32 then (d &&& b) ||| (~~~d &&& c)
  else if i < 48 then b ^^^ c ^^^ d
  else c ^^^ (b ||| ~~~d)

/-- The message index `g` of step `i` (R147). -/
def stepG (i : Nat) : Nat :=
  if i < 16 then i
  else if i < 32 then (5 * i + 1) % 16
  else if i < 48 then (3 * i + 5) % 16
  else 7 * i % 16

/-- One step of the compression, with its constant and its rotation amount (R148). -/
def md5Step (m : List Word) (i : Nat) (k : Word) (s : Nat) (v : Chain) : Chain where
  a := v.d
  b := v.b + (stepF i v.b v.c v.d + v.a + k + m.getD (stepG i) 0).rotateLeft s
  c := v.b
  d := v.c

/-- The steps from step `i` on, along the tables `K` and `S` (R148). -/
def md5Steps (m : List Word) : Nat → List Word → List Nat → Chain → Chain
  | i, k :: ks, s :: ss, v => md5Steps m (i + 1) ks ss (md5Step m i k s v)
  | _, _, _, v => v

/-- The compression of one 64-byte block (R148). -/
def compress (v : Chain) (block : List Byte) : Chain :=
  let w := md5Steps (wordsOf block) 0 tableK tableS v
  { a := v.a + w.a, b := v.b + w.b, c := v.c + w.c, d := v.d + w.d }

/-- The chaining words after the last block of `pad(m)` (R148). -/
def md5Chain (m : List Byte) : Chain :=
  (blocksOf ((pad m).length / 64) (pad m)).foldl compress Chain.start

/-- `MD5(m)`, 16 bytes (R149). -/
def md5 (m : List Byte) : List Byte :=
  bytesLe32 (md5Chain m).a ++ bytesLe32 (md5Chain m).b ++ bytesLe32 (md5Chain m).c ++
    bytesLe32 (md5Chain m).d

/-- `Chk(s)` under `DIGEST_INT_ORDER` (R140). -/
def chk (o : DigestIntOrder) (s : List Byte) : Half :=
  match o with
  | .big => be16 (byteAt (md5 s) 14) (byteAt (md5 s) 15)
  | .little => be16 (byteAt (md5 s) 1) (byteAt (md5 s) 0)

/-- `ChkZ(s)`: the checksum of the zeroed copy (R141). -/
def chkZ (o : DigestIntOrder) (s : List Byte) : Half := chk o (zeroedCopy s)

end Sys2Proof.Machine
end

