-- ==== Sys2Proof/Machine/Port.lean ====
section
/-! DEFINITION. The input lines the host drives (30_encoding.md R80, 20_memory.md R50). -/

namespace Sys2Proof.Machine

/-- The command word and the operand inputs (R80). `inBuf` is what the host has written to `IN`, from
offset 0 on (log 20). -/
structure Inputs where
  cmd    : Word
  aSrc   : Half
  aDst   : Half
  aSeq   : Word
  aAckn  : Word
  aFreq  : BitVec 5
  aFlags : BitVec 3
  aWin   : Word
  inBuf  : List Byte
  inLen  : Half
deriving DecidableEq, Repr

/-- Every line 0 and nothing written to `IN`. -/
def Inputs.zero : Inputs where
  cmd := 0
  aSrc := 0
  aDst := 0
  aSeq := 0
  aAckn := 0
  aFreq := 0
  aFlags := 0
  aWin := 0
  inBuf := []
  inLen := 0

/-- `IN[0..n)` (R50). DESIGN CHOICE: a byte the host never wrote is the free value
`Config.inPowerOn` (log 7). -/
def Inputs.bytes (l : Inputs) (n : Nat) : List Byte :=
  l.inBuf.take n ++
    (List.range' l.inBuf.length (n - l.inBuf.length)).map Config.inPowerOn

/-- `IN[0..IN_LEN)` (R50). -/
def Inputs.input (l : Inputs) : List Byte := l.bytes l.inLen.toNat

end Sys2Proof.Machine
end

