-- ==== Sys2Proof/Syntax.lean ====
section
/-! DEFINITION. The sixteen commands with their operands (30_encoding.md R82, R86; one constructor per
row of spec/opcode_table.json). A `<bytes>` operand is the byte sequence `IN[0..IN_LEN)`. -/

namespace Sys2Proof

/-- A command line of R86: the command and the operands it reads, in the order of its syntax. -/
inductive Instr where
  | construct (src dst : Half) (payload : List Byte) (seq ackn : Word) (freq : BitVec 5)
      (ack syn fin : Bool) (win : Word)
  | serialize
  | calcChecksum (input : List Byte)
  | recalcChecksum
  | parse (input : List Byte)
  | isTerminator
  | setSrcPort (v : Half)
  | setDstPort (v : Half)
  | setSeq (v : Word)
  | setAckNumber (v : Word)
  | setFrequency (v : BitVec 5)
  | setAckFlag (v : Bool)
  | setSynFlag (v : Bool)
  | setFinFlag (v : Bool)
  | setWindow (v : Word)
  | setPayload (payload : List Byte)
deriving DecidableEq, Repr

end Sys2Proof
end

