-- ==== Sys2Proof/WellFormed.lean ====
section
/-! DEFINITION. Which commands the input lines can carry: `IN` holds at most `MAX_IN_BYTES` bytes
(30_encoding.md R84 case 3) and `IN_LEN` is 16 bits wide (R80). Every other operand is exactly as wide
as its line, so it is well formed by its type (R80). -/

namespace Sys2Proof

/-- The length of the byte sequence a command takes from `IN`; 0 for a command that reads none (R82). -/
def Instr.inputLength : Instr → Nat
  | .construct _ _ payload _ _ _ _ _ _ _ => payload.length
  | .serialize => 0
  | .calcChecksum input => input.length
  | .recalcChecksum => 0
  | .parse input => input.length
  | .isTerminator => 0
  | .setSrcPort _ => 0
  | .setDstPort _ => 0
  | .setSeq _ => 0
  | .setAckNumber _ => 0
  | .setFrequency _ => 0
  | .setAckFlag _ => 0
  | .setSynFlag _ => 0
  | .setFinFlag _ => 0
  | .setWindow _ => 0
  | .setPayload payload => payload.length

/-- The input fits the buffer `IN` (R84 case 3). -/
abbrev Instr.FitsBuffer (p : Params) (i : Instr) : Prop := i.inputLength ≤ p.maxInBytes

/-- The input's length fits `IN_LEN` (R80). -/
abbrev Instr.FitsLength (i : Instr) : Prop := i.inputLength < 2 ^ 16

/-- A command that the input lines of a block with parameters `p` can carry. -/
abbrev Instr.WellFormed (p : Params) (i : Instr) : Prop := i.FitsBuffer p ∧ i.FitsLength

end Sys2Proof
end

