-- ==== Sys2Proof/Decode.lean ====
section
/-! DEFINITION. Decoding the command word and the operand inputs, and the encoder that drives them
(30_encoding.md R80 to R86, spec/opcode_table.json). -/

namespace Sys2Proof

/-- The sixteen commands of the opcode map (R82). -/
inductive Opcode where
  | construct
  | serialize
  | calcChecksum
  | recalcChecksum
  | parse
  | isTerminator
  | setSrcPort
  | setDstPort
  | setSeq
  | setAckNumber
  | setFrequency
  | setAckFlag
  | setSynFlag
  | setFinFlag
  | setWindow
  | setPayload
deriving DecidableEq, Repr

/-- Why a command is illegal: the three cases of R84, in the order they are checked. -/
inductive DecodeError where
  /-- `CMD[31:8] != 0`. -/
  | reservedBits
  /-- `OPC` is not one of the sixteen values of R82. -/
  | unassignedOpcode
  /-- The command reads `IN` and `IN_LEN > MAX_IN_BYTES`. -/
  | inputTooLong
deriving DecidableEq, Repr

/-- The opcode map read from the value of `OPC` (R82). -/
def Opcode.lookup : Nat → Option Opcode
  | 0x01 => some .construct
  | 0x02 => some .serialize
  | 0x03 => some .calcChecksum
  | 0x04 => some .recalcChecksum
  | 0x05 => some .parse
  | 0x06 => some .isTerminator
  | 0x10 => some .setSrcPort
  | 0x11 => some .setDstPort
  | 0x12 => some .setSeq
  | 0x13 => some .setAckNumber
  | 0x14 => some .setFrequency
  | 0x15 => some .setAckFlag
  | 0x16 => some .setSynFlag
  | 0x17 => some .setFinFlag
  | 0x18 => some .setWindow
  | 0x19 => some .setPayload
  | _ => none

/-- The value of `OPC` that selects a command (R82). -/
def Opcode.toByte : Opcode → Byte
  | .construct => 0x01
  | .serialize => 0x02
  | .calcChecksum => 0x03
  | .recalcChecksum => 0x04
  | .parse => 0x05
  | .isTerminator => 0x06
  | .setSrcPort => 0x10
  | .setDstPort => 0x11
  | .setSeq => 0x12
  | .setAckNumber => 0x13
  | .setFrequency => 0x14
  | .setAckFlag => 0x15
  | .setSynFlag => 0x16
  | .setFinFlag => 0x17
  | .setWindow => 0x18
  | .setPayload => 0x19

/-- The four commands that read `IN` (20_memory.md R50, R84 case 3). -/
def Opcode.readsIn : Opcode → Bool
  | .construct => true
  | .serialize => false
  | .calcChecksum => true
  | .recalcChecksum => false
  | .parse => true
  | .isTerminator => false
  | .setSrcPort => false
  | .setDstPort => false
  | .setSeq => false
  | .setAckNumber => false
  | .setFrequency => false
  | .setAckFlag => false
  | .setSynFlag => false
  | .setFinFlag => false
  | .setWindow => false
  | .setPayload => true

/-- The command with the operands it reads, and no other input (R82, R83). Bits 2, 1 and 0 of `A_FLAGS`
are `ack`, `syn` and `fin` (R80). -/
def Opcode.operands (l : Machine.Inputs) : Opcode → Instr
  | .construct =>
    .construct l.aSrc l.aDst l.input l.aSeq l.aAckn l.aFreq
      (l.aFlags.getLsbD 2) (l.aFlags.getLsbD 1) (l.aFlags.getLsbD 0) l.aWin
  | .serialize => .serialize
  | .calcChecksum => .calcChecksum l.input
  | .recalcChecksum => .recalcChecksum
  | .parse => .parse l.input
  | .isTerminator => .isTerminator
  | .setSrcPort => .setSrcPort l.aSrc
  | .setDstPort => .setDstPort l.aDst
  | .setSeq => .setSeq l.aSeq
  | .setAckNumber => .setAckNumber l.aAckn
  | .setFrequency => .setFrequency l.aFreq
  | .setAckFlag => .setAckFlag (l.aFlags.getLsbD 2)
  | .setSynFlag => .setSynFlag (l.aFlags.getLsbD 1)
  | .setFinFlag => .setFinFlag (l.aFlags.getLsbD 0)
  | .setWindow => .setWindow l.aWin
  | .setPayload => .setPayload l.input

/-- The command a command word names, whatever the other inputs: the word's reserved bits are 0 and `OPC` is
assigned (R81, R82; R84 cases 1 and 2). -/
def Opcode.ofWord (cmd : Word) : Option Opcode :=
  if cmd.extractLsb 31 8 ≠ 0 then none else Opcode.lookup (cmd.extractLsb 7 0).toNat

/-- The decoder of R84: total on every command word and every `IN_LEN`, rejecting by name. -/
def decode (p : Params) (l : Machine.Inputs) : Except DecodeError Instr :=
  if l.cmd.extractLsb 31 8 ≠ 0 then .error .reservedBits
  else
    match Opcode.lookup (l.cmd.extractLsb 7 0).toNat with
    | none => .error .unassignedOpcode
    | some op =>
      if op.readsIn ∧ p.maxInBytes < l.inLen.toNat then .error .inputTooLong
      else .ok (op.operands l)

/-- The command of an instruction (R86). -/
def Instr.opcode : Instr → Opcode
  | .construct _ _ _ _ _ _ _ _ _ _ => .construct
  | .serialize => .serialize
  | .calcChecksum _ => .calcChecksum
  | .recalcChecksum => .recalcChecksum
  | .parse _ => .parse
  | .isTerminator => .isTerminator
  | .setSrcPort _ => .setSrcPort
  | .setDstPort _ => .setDstPort
  | .setSeq _ => .setSeq
  | .setAckNumber _ => .setAckNumber
  | .setFrequency _ => .setFrequency
  | .setAckFlag _ => .setAckFlag
  | .setSynFlag _ => .setSynFlag
  | .setFinFlag _ => .setFinFlag
  | .setWindow _ => .setWindow
  | .setPayload _ => .setPayload

/-- `CMD = zext_32(OPC)` (R86). -/
def Instr.commandWord (i : Instr) : Word := i.opcode.toByte.setWidth 32

/-- `A_FLAGS` from the three flags: bit 2 `ack`, bit 1 `syn`, bit 0 `fin` (R80). -/
def flagLines (ack syn fin : Bool) : BitVec 3 :=
  BitVec.ofBool ack ++ BitVec.ofBool syn ++ BitVec.ofBool fin

/-- The operand inputs a command line names, every other line 0 (R86; R83: the others are don't-care).
DESIGN CHOICE: a byte literal of 65536 or more bytes, whose length `IN_LEN` cannot hold, drives its length modulo
65536 (log 19); such a command is not well formed. -/
def Instr.operandLines : Instr → Machine.Inputs
  | .construct src dst payload seq ackn freq ack syn fin win =>
    { Machine.Inputs.zero with
      aSrc := src, aDst := dst, aSeq := seq, aAckn := ackn, aFreq := freq,
      aFlags := flagLines ack syn fin, aWin := win,
      inBuf := payload, inLen := BitVec.ofNat 16 payload.length }
  | .serialize => Machine.Inputs.zero
  | .calcChecksum input =>
    { Machine.Inputs.zero with inBuf := input, inLen := BitVec.ofNat 16 input.length }
  | .recalcChecksum => Machine.Inputs.zero
  | .parse input =>
    { Machine.Inputs.zero with inBuf := input, inLen := BitVec.ofNat 16 input.length }
  | .isTerminator => Machine.Inputs.zero
  | .setSrcPort v => { Machine.Inputs.zero with aSrc := v }
  | .setDstPort v => { Machine.Inputs.zero with aDst := v }
  | .setSeq v => { Machine.Inputs.zero with aSeq := v }
  | .setAckNumber v => { Machine.Inputs.zero with aAckn := v }
  | .setFrequency v => { Machine.Inputs.zero with aFreq := v }
  | .setAckFlag v => { Machine.Inputs.zero with aFlags := flagLines v false false }
  | .setSynFlag v => { Machine.Inputs.zero with aFlags := flagLines false v false }
  | .setFinFlag v => { Machine.Inputs.zero with aFlags := flagLines false false v }
  | .setWindow v => { Machine.Inputs.zero with aWin := v }
  | .setPayload payload =>
    { Machine.Inputs.zero with inBuf := payload, inLen := BitVec.ofNat 16 payload.length }

/-- What a command line assembles to: `CMD` plus the operand inputs its operands name (R86). -/
def encode (i : Instr) : Machine.Inputs := { i.operandLines with cmd := i.commandWord }

/-- The instruction the decoder reads from a command word numbered as spec/opcode_table.json numbers it,
with every operand input 0, on a block with the default parameters. -/
def decodeTableWord (nbits w : Nat) : Option Instr :=
  if nbits ≤ 32 ∧ w < 2 ^ nbits then
    (decode Params.default { Machine.Inputs.zero with cmd := BitVec.ofNat 32 w }).toOption
  else none

end Sys2Proof
end

