-- ==== Sys2Proof/Machine/State.lean ====
section
/-! DEFINITION. The state of the block, the host's side that a step reads, the reasons a step can stop,
and the state right after reset (10_state.md, 60_exceptions.md R200, 70_reset_and_hazards.md). -/

namespace Sys2Proof.Machine

/-- The values of `STATUS` (60_exceptions.md R200). The reserved values are never written (R200,
93_implementation_defined.md I11). -/
inductive Status where
  | none
  | ok
  | tooShort
  | checksumMismatch
  | truncatedPayload
  | noPacket
  | payloadTooLong
  | illegalCommand
deriving DecidableEq, Repr

/-- The fields of `PKT` (10_state.md R22). `payload_len` is the length of `payload`: the list holds
exactly the storage bytes that hold a value. -/
structure Packet where
  srcPort    : Half
  dstPort    : Half
  seqNumber  : Word
  ackNumber  : Word
  frequency  : BitVec 5
  ack        : Bool
  syn        : Bool
  fin        : Bool
  dataOffset : Byte
  checksum   : Half
  windowSize : Word
  payload    : List Byte
deriving DecidableEq, Repr

/-- The registers the host may read (10_state.md R34, and `BUSY` of R28). `payload i` and `out i` are the
bytes at offset `i`. -/
inductive Reg where
  | pktValid
  | srcPort
  | dstPort
  | seqNumber
  | ackNumber
  | frequency
  | ack
  | syn
  | fin
  | dataOffset
  | checksum
  | windowSize
  | payloadLen
  | payload (i : Nat)
  | status
  | busy
  | errExpected
  | errActual
  | errOffset
  | out (i : Nat)
  | outLen
  | outValid
  | resChk
  | chkValid
  | resTerm
  | termValid
deriving DecidableEq, Repr

/-- A command the block has accepted and not completed: the inputs it was accepted with, and whether the
host has changed an input since (70_reset_and_hazards.md R233). -/
structure InProgress where
  inputs : Inputs
  raced  : Bool
deriving DecidableEq, Repr

/-- What can happen next at the block's interface (log 3). -/
inductive Event where
  /-- The host presents the command on the input lines. If `BUSY = 0` the block performs it in this one
  step (00_scope.md R5); if `BUSY = 1` it is not accepted (R234). -/
  | command
  /-- The host presents the command on the input lines, and the block accepts it and is then seen busy
  (10_state.md R28); if `BUSY = 1` it is not accepted (R234). -/
  | accept
  /-- The command in progress completes (R238). -/
  | complete
  /-- The host drives the input lines (R80, R233). -/
  | drive (l : Inputs)
  /-- The host reads a register (R33, R34, R236). -/
  | read (r : Reg)
  /-- The reset input is asserted (R230). -/
  | reset
  /-- The host's side of ROUNDTRIP (30_encoding.md R87): if `STATUS = OK` it copies `OUT` to `IN` and
  presents PARSE. -/
  | parseOut
deriving DecidableEq, Repr

/-- Why the machine stops. -/
inductive Fault where
  /-- The host read a register that holds no value (10_state.md R33, R22, R30; 92_eei_decisions.md D25;
  93_implementation_defined.md I12 to I14). Raised by the event `read` and by the copy of `parseOut`, by no
  command. Safe: the spec asks for this fault and forbids any value in its place. -/
  | noValue (r : Reg)
  /-- The host read a byte beyond the capacity of `OUT` or of the payload storage (R22, R30). Raised by the
  event `read`. Safe: the byte does not exist (log 18). -/
  | noSuchByte (r : Reg)
deriving DecidableEq, Repr

/-- Why a step has no meaning. -/
inductive Refusal where
  /-- A command with no meaning in this model, by its mnemonic. Raised by an arm of `exec` only. Safe. -/
  | notModelled (mnemonic : String)
deriving DecidableEq, Repr

/-- The block's registers, and the host's side that a step reads. `PKT_VALID`, `CHK_VALID`, `TERM_VALID`
and `BUSY` are 1 when `pkt`, `resChk`, `resTerm` and `inProgress` are `some`; `OUT_LEN` is the length of
`out` (log 9). -/
structure State where
  /-- The parameters of the block (00_scope.md R6, log 1). -/
  params      : Params
  /-- `PKT` with `PKT_VALID` (R21). -/
  pkt         : Option Packet
  /-- `STATUS` (R27). -/
  status      : Status
  /-- `ERR_EXPECTED` (R29). -/
  errExpected : Word
  /-- `ERR_ACTUAL` (R29). -/
  errActual   : Word
  /-- `ERR_OFFSET` (R29). -/
  errOffset   : Half
  /-- `OUT[0..OUT_LEN)` (R30). -/
  out         : List Byte
  /-- `OUT_VALID` (R30). -/
  outValid    : Bool
  /-- `RES_CHK` with `CHK_VALID` (R31). -/
  resChk      : Option Half
  /-- `RES_TERM` with `TERM_VALID` (R32). -/
  resTerm     : Option Bool
  /-- `BUSY` (R28), with the command in progress (log 4). -/
  inProgress  : Option InProgress
  /-- The input lines the host drives (R35, log 2). -/
  lines       : Inputs
  /-- What happens next at the interface, oldest first (log 3). -/
  events      : List Event
  /-- The number of free draws made so far (log 5). -/
  draws       : Nat
  /-- What the host's last read returned (log 6). -/
  readout     : Option Word
deriving DecidableEq, Repr

/-- The state right after reset, of a block with the default parameters (R38, R230, R231). DESIGN CHOICE:
the host's side (`lines`, `events`, `draws`, `readout`), which no rule resets (log 2, 3, 5, 6). -/
def State.reset : State where
  params := Params.default
  pkt := none
  status := .none
  errExpected := 0
  errActual := 0
  errOffset := 0
  out := []
  outValid := false
  resChk := none
  resTerm := none
  inProgress := none
  lines := Inputs.zero
  events := []
  draws := 0
  readout := none

end Sys2Proof.Machine
end

