-- ==== Sys2Proof/Machine/Ops.lean ====
section
/-! DEFINITION. The operations every command shares: how a command ends (60_exceptions.md R202, R203), the
check for a packet (40_serializer.md R101), reading a register (10_state.md R33, R34), which registers a
command may write (R26, R30 to R32), and the outcome of a race (70_reset_and_hazards.md R233). -/

namespace Sys2Proof.Machine

/-- What a step or a command answers. -/
abbrev Result := Host.Outcome State Fault Refusal

/-- The value of a status code (60_exceptions.md R200). -/
def Status.code : Status → BitVec 4
  | .none => 0x0
  | .ok => 0x1
  | .tooShort => 0x2
  | .checksumMismatch => 0x3
  | .truncatedPayload => 0x4
  | .noPacket => 0x5
  | .payloadTooLong => 0x6
  | .illegalCommand => 0x7

/-- The status code with a given value; the reserved values have none (R200), so three bits name every
code. -/
def Status.ofBits (b : BitVec 3) : Status :=
  match b.toNat with
  | 0 => .none
  | 1 => .ok
  | 2 => .tooShort
  | 3 => .checksumMismatch
  | 4 => .truncatedPayload
  | 5 => .noPacket
  | 6 => .payloadTooLong
  | _ => .illegalCommand

/-- `complete()`: `STATUS <- OK`, the error registers 0, `BUSY <- 0` (R202). -/
def State.complete (s : State) : State :=
  { s with status := .ok, errExpected := 0, errActual := 0, errOffset := 0, inProgress := none }

/-- `raise <Status>(expected, actual, offset)`, applied to the state before the command, so that every
other write of the command is discarded (R203). -/
def State.raise (st : Status) (expected actual : Word) (offset : Half) (s : State) : State :=
  { s with
    status := st, errExpected := expected, errActual := actual, errOffset := offset,
    inProgress := none }

/-- `raise ILLEGAL_COMMAND(0, CMD, 0)` (30_encoding.md R84). -/
def State.illegalCommand (cmd : Word) (s : State) : State := s.raise .illegalCommand 0 cmd 0

/-- `needs_packet()`, then `k` on the packet (40_serializer.md R101). -/
def needsPacket (s : State) (k : Packet → State) : State :=
  match s.pkt with
  | none => s.raise .noPacket 0 0 0
  | some p => k p

/-- The length check of `assign_payload`, then `k` (R102). -/
def checkPayload (input : List Byte) (s : State) (k : State) : State :=
  if 1020 < input.length then
    s.raise .payloadTooLong 1020 (BitVec.ofNat 32 input.length) 1020
  else k

/-- `PKT <- P`, `PKT_VALID <- 1` (R103, R170). -/
def State.loadPacket (p : Packet) (s : State) : State := { s with pkt := some p }

/-- `OUT[0..len(s)) <- s`, `OUT_LEN <- len(s)`, `OUT_VALID <- 1`; the bytes beyond hold no value (R110,
10_state.md R30). -/
def State.loadOut (bytes : List Byte) (s : State) : State := { s with out := bytes, outValid := true }

/-- `RES_CHK <- c`, `CHK_VALID <- 1` (41_checksum.md R150). -/
def State.loadChk (c : Half) (s : State) : State := { s with resChk := some c }

/-- `RES_TERM <- b`, `TERM_VALID <- 1` (42_parser.md R180). -/
def State.loadTerm (b : Bool) (s : State) : State := { s with resTerm := some b }

/-- A mutation command: `needs_packet(); PKT <- f(PKT); complete()` (R112, R120 to R129). -/
def mutatePacket (f : Packet → Packet) (s : State) : State :=
  needsPacket s fun p => (s.loadPacket (f p)).complete

/-- A bit as the value read from a 1-bit register. -/
def bitWord (b : Bool) : Word := (BitVec.ofBool b).setWidth 32

/-- What a register holds, zero-extended to 32 bits; `none` where it holds no value (10_state.md R33). -/
def State.peek (s : State) : Reg → Option Word
  | .pktValid => some (bitWord s.pkt.isSome)
  | .srcPort => s.pkt.map fun p => p.srcPort.setWidth 32
  | .dstPort => s.pkt.map fun p => p.dstPort.setWidth 32
  | .seqNumber => s.pkt.map fun p => p.seqNumber
  | .ackNumber => s.pkt.map fun p => p.ackNumber
  | .frequency => s.pkt.map fun p => p.frequency.setWidth 32
  | .ack => s.pkt.map fun p => bitWord p.ack
  | .syn => s.pkt.map fun p => bitWord p.syn
  | .fin => s.pkt.map fun p => bitWord p.fin
  | .dataOffset => s.pkt.map fun p => p.dataOffset.setWidth 32
  | .checksum => s.pkt.map fun p => p.checksum.setWidth 32
  | .windowSize => s.pkt.map fun p => p.windowSize
  | .payloadLen => s.pkt.map fun p => BitVec.ofNat 32 p.payload.length
  | .payload i => s.pkt.bind fun p => p.payload[i]?.map fun b => b.setWidth 32
  | .status => some (s.status.code.setWidth 32)
  | .busy => some (bitWord s.inProgress.isSome)
  | .errExpected => some s.errExpected
  | .errActual => some s.errActual
  | .errOffset => some (s.errOffset.setWidth 32)
  | .out i => if s.outValid then s.out[i]?.map fun b => b.setWidth 32 else none
  | .outLen => some (BitVec.ofNat 32 s.out.length)
  | .outValid => some (bitWord s.outValid)
  | .resChk => s.resChk.map fun c => c.setWidth 32
  | .chkValid => some (bitWord s.resChk.isSome)
  | .resTerm => s.resTerm.map bitWord
  | .termValid => some (bitWord s.resTerm.isSome)

/-- `PKT_VALID` or a field of `PKT` (R21, R22). -/
def Reg.inPacket : Reg → Bool
  | .pktValid | .srcPort | .dstPort | .seqNumber | .ackNumber | .frequency | .ack | .syn | .fin
  | .dataOffset | .checksum | .windowSize | .payloadLen | .payload _ => true
  | .status | .busy | .errExpected | .errActual | .errOffset | .out _ | .outLen | .outValid
  | .resChk | .chkValid | .resTerm | .termValid => false

/-- `STATUS` and the error registers, which every command writes (R27, R29). -/
def Reg.isStatus : Reg → Bool
  | .status | .errExpected | .errActual | .errOffset => true
  | _ => false

/-- The registers a command writes when it ends with OK, `STATUS` and the error registers apart
(R26, R30, R31, R32). -/
def commandWrites : Opcode → Reg → Bool
  | .construct, r => r.inPacket
  | .serialize, .out _ => true
  | .serialize, .outLen => true
  | .serialize, .outValid => true
  | .calcChecksum, .resChk => true
  | .calcChecksum, .chkValid => true
  | .recalcChecksum, .checksum => true
  | .parse, r => r.inPacket
  | .isTerminator, .resTerm => true
  | .isTerminator, .termValid => true
  | .setSrcPort, .srcPort => true
  | .setDstPort, .dstPort => true
  | .setSeq, .seqNumber => true
  | .setAckNumber, .ackNumber => true
  | .setFrequency, .frequency => true
  | .setAckFlag, .ack => true
  | .setSynFlag, .syn => true
  | .setFinFlag, .fin => true
  | .setWindow, .windowSize => true
  | .setPayload, .payload _ => true
  | .setPayload, .payloadLen => true
  | .setPayload, .dataOffset => true
  | _, _ => false

/-- The registers the rule of the command that `CMD` names may write (R26, R203, R233): `STATUS` and the error
registers, and those it writes when it ends with OK. A word that names no command is illegal and writes only the
former (R84). DEDUCED: `IN_LEN` does not count, so a command accepted with too long an input is held to its
rule (log 10); and `BUSY` is not among them, as it is 1 until the command completes (R28; log 6). -/
def mayWrite (l : Inputs) (r : Reg) : Bool :=
  r.isStatus || (Opcode.ofWord l.cmd).any fun op => commandWrites op r

/-- The largest value a register's type has (R6, R22, R27 to R32; R200 for `STATUS`). -/
def Reg.maxValue : Reg → Nat
  | .pktValid | .ack | .syn | .fin | .busy | .outValid | .chkValid | .resTerm | .termValid => 1
  | .srcPort | .dstPort | .checksum | .errOffset | .resChk => 2 ^ 16 - 1
  | .seqNumber | .ackNumber | .windowSize | .errExpected | .errActual => 2 ^ 32 - 1
  | .frequency => 31
  | .dataOffset | .payload _ | .out _ => 255
  | .payloadLen => 1020
  | .status => 7
  | .outLen => 1040

/-- A byte of a store that has such a byte: the payload storage has 1020, `OUT` has 1040 (R22, R30). -/
def Reg.isPresent : Reg → Bool
  | .payload i => decide (i < 1020)
  | .out i => decide (i < 1040)
  | _ => true

/-- FREE VALUE (log 6): any value of the register's type. -/
def freeRead (draw : Nat) (r : Reg) : Word :=
  BitVec.ofNat 32 ((Config.freeBits 32 draw 0).toNat % (r.maxValue + 1))

/-- The host reads a register (R33, R34). While `BUSY = 1`, a register the command in progress may write
reads as any value of its type (70_reset_and_hazards.md R236); any other reads as while idle, so it faults where it
holds no value (R33). -/
def State.hostRead (r : Reg) (s : State) : Result :=
  if r.isPresent then
    match s.inProgress, s.peek r with
    | some c, v =>
      if mayWrite c.inputs r then
        .next { s with readout := some (freeRead s.draws r), draws := s.draws + 1 }
      else
        match v with
        | some w => .next { s with readout := some w }
        | none => .fault (.noValue r)
    | none, some w => .next { s with readout := some w }
    | none, none => .fault (.noValue r)
  else .fault (.noSuchByte r)

/-- FREE VALUE (log 5): any payload the storage can hold. -/
def freePayload (draw : Nat) : List Byte := (Config.freeBytes draw).take 1020

/-- FREE VALUE (log 5): any bit. -/
def freeBit (draw slot : Nat) : Bool := (Config.freeBits 1 draw slot).getLsbD 0

/-- FREE VALUE (log 5): any packet `PKT` can hold. -/
def freePacket (draw : Nat) : Packet where
  srcPort := Config.freeBits 16 draw 10
  dstPort := Config.freeBits 16 draw 11
  seqNumber := Config.freeBits 32 draw 12
  ackNumber := Config.freeBits 32 draw 13
  frequency := Config.freeBits 5 draw 14
  ack := freeBit draw 15
  syn := freeBit draw 16
  fin := freeBit draw 17
  dataOffset := Config.freeBits 8 draw 18
  checksum := Config.freeBits 16 draw 19
  windowSize := Config.freeBits 32 draw 20
  payload := freePayload draw

/-- FREE VALUE (log 5): any `PKT_VALID`, and any packet with it. -/
def freePkt (draw : Nat) : Option Packet :=
  if freeBit draw 4 then some (freePacket draw) else none

/-- The registers that a command may write, each at any value of its type; the others keep their values
(R233). -/
def raceWrites (draw : Nat) (s : State) : Opcode → State
  | .construct => { s with pkt := freePkt draw }
  | .serialize =>
    { s with
      out := (Config.freeBytes draw).take 1040
      outValid := freeBit draw 5 }
  | .calcChecksum =>
    { s with resChk := if freeBit draw 6 then some (Config.freeBits 16 draw 7) else none }
  | .recalcChecksum => { s with pkt := s.pkt.map fun p => { p with checksum := (freePacket draw).checksum } }
  | .parse => { s with pkt := freePkt draw }
  | .isTerminator => { s with resTerm := if freeBit draw 8 then some (freeBit draw 9) else none }
  | .setSrcPort => { s with pkt := s.pkt.map fun p => { p with srcPort := (freePacket draw).srcPort } }
  | .setDstPort => { s with pkt := s.pkt.map fun p => { p with dstPort := (freePacket draw).dstPort } }
  | .setSeq => { s with pkt := s.pkt.map fun p => { p with seqNumber := (freePacket draw).seqNumber } }
  | .setAckNumber =>
    { s with pkt := s.pkt.map fun p => { p with ackNumber := (freePacket draw).ackNumber } }
  | .setFrequency =>
    { s with pkt := s.pkt.map fun p => { p with frequency := (freePacket draw).frequency } }
  | .setAckFlag => { s with pkt := s.pkt.map fun p => { p with ack := (freePacket draw).ack } }
  | .setSynFlag => { s with pkt := s.pkt.map fun p => { p with syn := (freePacket draw).syn } }
  | .setFinFlag => { s with pkt := s.pkt.map fun p => { p with fin := (freePacket draw).fin } }
  | .setWindow =>
    { s with pkt := s.pkt.map fun p => { p with windowSize := (freePacket draw).windowSize } }
  | .setPayload =>
    { s with
      pkt := s.pkt.map fun p =>
        { p with payload := (freePacket draw).payload, dataOffset := (freePacket draw).dataOffset } }

/-- `STATUS` and the error registers at any value, `BUSY <- 0`, and one free draw made (R233). -/
def State.raceStatus (s : State) : State :=
  { s with
    status := Status.ofBits (Config.freeBits 3 s.draws 0)
    errExpected := Config.freeBits 32 s.draws 1
    errActual := Config.freeBits 32 s.draws 2
    errOffset := Config.freeBits 16 s.draws 3
    inProgress := none
    draws := s.draws + 1 }

/-- A command whose inputs the host changed while `BUSY = 1` completes: a race whose outcome is a free draw
(R233, 93_implementation_defined.md I15; log 5). DEDUCED: the rule that counts is that of the command accepted,
whatever its `IN_LEN` was, since the block may come to read the changed one (log 10). -/
def State.raceOutcome (l : Inputs) (s : State) : State :=
  match Opcode.ofWord l.cmd with
  | some op => raceWrites s.draws s.raceStatus op
  | none => s.raceStatus

/-- Reset: every register at its reset value; the parameters, the input lines and the host's side stay, and
a command in progress is abandoned (R230, R231, 93 I24). -/
def State.applyReset (s : State) : State :=
  { State.reset with
    params := s.params, lines := s.lines, events := s.events, draws := s.draws,
    readout := s.readout }

/-- The host drives the input lines; bytes past the end of `IN` do not exist. While `BUSY = 1` a change
makes the command in progress race (R80, R233). DEDUCED: any change counts (log 10), and the lines are driven
all at once (log 17). DESIGN CHOICE: bytes the host wrote to `IN` earlier, past the end of `l.inBuf`, are as if
never written (log 20). -/
def State.drive (l : Inputs) (s : State) : State :=
  let l' := { l with inBuf := l.inBuf.take s.params.maxInBytes }
  { s with
    lines := l'
    inProgress := s.inProgress.map fun c => { c with raced := c.raced || decide (l' ≠ s.lines) } }

/-- The command on the lines is accepted and not yet completed: `BUSY` is 1 (10_state.md R28). -/
def State.accept (s : State) : State := { s with inProgress := some { inputs := s.lines, raced := false } }

end Sys2Proof.Machine
end

