-- ==== Sys2Proof/Machine/Checksum.lean ====
section
/-! DEFINITION. The command CALC_CHECKSUM (41_checksum.md R150). -/

namespace Sys2Proof.Machine

/-- CALC_CHECKSUM: the checksum of the input bytes as they are (R150). -/
def execCalcChecksum (input : List Byte) (s : State) : Result :=
  .next (s.loadChk (chk s.params.digestIntOrder input)).complete

end Sys2Proof.Machine
end

