-- ==== Sys2Proof/Machine/Operands.lean ====
section
/-! DEFINITION. The payload operand: padding and `data_offset` (40_serializer.md R102). The other operands
are used as the decoder gives them (30_encoding.md R80, R82). -/

namespace Sys2Proof.Machine

/-- `ceil(n / 4)` (00_scope.md R7). -/
def wordsCeil (n : Nat) : Nat := (n + 3) / 4

/-- The payload that is stored for the operand `IN[0..n)`, under `UNALIGNED_PAYLOAD` (R102). -/
def storedPayload (u : UnalignedPayload) (p : List Byte) : List Byte :=
  match u with
  | .padZero => p ++ zeros ((4 - p.length % 4) % 4)
  | .legacy => p

/-- The writes of `assign_payload` once the length is checked: `payload`, `payload_len` and
`data_offset` (R102). -/
def Packet.assignPayload (u : UnalignedPayload) (input : List Byte) (p : Packet) : Packet :=
  { p with
    payload := storedPayload u input
    dataOffset := BitVec.ofNat 8 (wordsCeil input.length) }

end Sys2Proof.Machine
end

