-- ==== Sys2Proof/Machine/Mutation.lean ====
section
/-! DEFINITION. The field mutation commands SET_* (40_serializer.md R120 to R129). None of them writes
`PKT.checksum`. -/

namespace Sys2Proof.Machine

/-- SET_SRC_PORT (R120). -/
def execSetSrcPort (v : Half) (s : State) : Result :=
  .next <| mutatePacket (fun p => { p with srcPort := v }) s

/-- SET_DST_PORT (R121). -/
def execSetDstPort (v : Half) (s : State) : Result :=
  .next <| mutatePacket (fun p => { p with dstPort := v }) s

/-- SET_SEQ (R122). -/
def execSetSeq (v : Word) (s : State) : Result :=
  .next <| mutatePacket (fun p => { p with seqNumber := v }) s

/-- SET_ACK_NUMBER (R123). -/
def execSetAckNumber (v : Word) (s : State) : Result :=
  .next <| mutatePacket (fun p => { p with ackNumber := v }) s

/-- SET_FREQUENCY (R124). -/
def execSetFrequency (v : BitVec 5) (s : State) : Result :=
  .next <| mutatePacket (fun p => { p with frequency := v }) s

/-- SET_ACK_FLAG (R125). -/
def execSetAckFlag (v : Bool) (s : State) : Result :=
  .next <| mutatePacket (fun p => { p with ack := v }) s

/-- SET_SYN_FLAG (R126). -/
def execSetSynFlag (v : Bool) (s : State) : Result :=
  .next <| mutatePacket (fun p => { p with syn := v }) s

/-- SET_FIN_FLAG (R127). -/
def execSetFinFlag (v : Bool) (s : State) : Result :=
  .next <| mutatePacket (fun p => { p with fin := v }) s

/-- SET_WINDOW (R128). -/
def execSetWindow (v : Word) (s : State) : Result :=
  .next <| mutatePacket (fun p => { p with windowSize := v }) s

/-- SET_PAYLOAD: the check for a packet comes before the length check (R129, 60_exceptions.md R206). -/
def execSetPayload (payload : List Byte) (s : State) : Result :=
  .next <| needsPacket s fun p =>
    checkPayload payload s
      (s.loadPacket (p.assignPayload s.params.unalignedPayload payload)).complete

end Sys2Proof.Machine
end

