-- ==== Sys2Proof/Machine/Flags.lean ====
section
/-! DEFINITION. The flags of the packet: byte 12 of the wire form (30_encoding.md R72) and the terminator
predicate (42_parser.md R180). The block has no condition codes (10_state.md R36). -/

namespace Sys2Proof.Machine

/-- `byte12 = {frequency[4:0], ack, syn, fin}` (R72). -/
def flagByte (frequency : BitVec 5) (ack syn fin : Bool) : Byte :=
  frequency ++ BitVec.ofBool ack ++ BitVec.ofBool syn ++ BitVec.ofBool fin

/-- `frequency = s[12][7:3]` (R72, R76). -/
def frequencyOf (byte12 : Byte) : BitVec 5 := byte12.extractLsb 7 3

/-- `ack = s[12][2]` (R72, R76). -/
def ackOf (byte12 : Byte) : Bool := byte12.getLsbD 2

/-- `syn = s[12][1]` (R72, R76). -/
def synOf (byte12 : Byte) : Bool := byte12.getLsbD 1

/-- `fin = s[12][0]` (R72, R76). -/
def finOf (byte12 : Byte) : Bool := byte12.getLsbD 0

/-- The terminator packet: all three flags 0 and an empty payload (R180). -/
def Packet.isTerminator (p : Packet) : Bool := !p.ack && !p.syn && !p.fin && p.payload.isEmpty

end Sys2Proof.Machine
end

