-- ==== Sys2Proof/Machine/Wire.lean ====
section
/-! DEFINITION. The wire form of a packet: `ser(P)` (40_serializer.md R100), the parser's field assembly
(30_encoding.md R76), and the packet sealed with its own checksum (R103, R112, R170). -/

namespace Sys2Proof.Machine

/-- Word 0 of the header (30_encoding.md R70). -/
def Packet.word0 (p : Packet) : Word := p.srcPort ++ p.dstPort

/-- Word 3 of the header (R70). -/
def Packet.word3 (p : Packet) : Word :=
  p.frequency ++ BitVec.ofBool p.ack ++ BitVec.ofBool p.syn ++ BitVec.ofBool p.fin ++
    p.dataOffset ++ p.checksum

/-- The 20 header bytes: five words, big-endian (R70, 20_memory.md R52). -/
def Packet.header (p : Packet) : List Byte :=
  bytesBe32 p.word0 ++ bytesBe32 p.seqNumber ++ bytesBe32 p.ackNumber ++ bytesBe32 p.word3 ++
    bytesBe32 p.windowSize

/-- `ser(P)`: the header, then the payload (R100). -/
def ser (p : Packet) : List Byte := p.header ++ p.payload

/-- The packet with `checksum <- Chk(ser(P))`, computed with the checksum field 0 (R103, R112, R170
step 4). -/
def Packet.sealed (o : DigestIntOrder) (p : Packet) : Packet :=
  { p with checksum := chk o (ser { p with checksum := 0 }) }

/-- The checksum a buffer carries in bytes 14 and 15 (R74). -/
def storedChecksum (s : List Byte) : Half := be16 (byteAt s 14) (byteAt s 15)

/-- The payload length a buffer declares, `4 × data_offset` (R73, R75). -/
def declaredPayload (s : List Byte) : Nat := 4 * (byteAt s 13).toNat

/-- The packet whose fields a buffer holds (R76). -/
def unpack (s : List Byte) : Packet where
  srcPort := be16 (byteAt s 0) (byteAt s 1)
  dstPort := be16 (byteAt s 2) (byteAt s 3)
  seqNumber := be32 (byteAt s 4) (byteAt s 5) (byteAt s 6) (byteAt s 7)
  ackNumber := be32 (byteAt s 8) (byteAt s 9) (byteAt s 10) (byteAt s 11)
  frequency := frequencyOf (byteAt s 12)
  ack := ackOf (byteAt s 12)
  syn := synOf (byteAt s 12)
  fin := finOf (byteAt s 12)
  dataOffset := byteAt s 13
  checksum := storedChecksum s
  windowSize := be32 (byteAt s 16) (byteAt s 17) (byteAt s 18) (byteAt s 19)
  payload := (s.drop 20).take (declaredPayload s)

end Sys2Proof.Machine
end

