-- ==== Sys2Proof/Machine/Parser.lean ====
section
/-! DEFINITION. The parser commands PARSE and IS_TERMINATOR (42_parser.md R170, R180). -/

namespace Sys2Proof.Machine

/-- PARSE: the checks in the order of R176, then the packet rebuilt with its own checksum (R170, R174). -/
def execParse (input : List Byte) (s : State) : Result :=
  .next <|
    if input.length < 20 then
      s.raise .tooShort 20 (BitVec.ofNat 32 input.length) (BitVec.ofNat 16 input.length)
    else if chkZ s.params.digestIntOrder input ≠ storedChecksum input then
      s.raise .checksumMismatch ((chkZ s.params.digestIntOrder input).setWidth 32)
        ((storedChecksum input).setWidth 32) 14
    else if input.length < 20 + declaredPayload input then
      s.raise .truncatedPayload (BitVec.ofNat 32 (20 + declaredPayload input))
        (BitVec.ofNat 32 input.length) (BitVec.ofNat 16 input.length)
    else (s.loadPacket ((unpack input).sealed s.params.digestIntOrder)).complete

/-- IS_TERMINATOR (R180). -/
def execIsTerminator (s : State) : Result :=
  .next <| needsPacket s fun p => (s.loadTerm p.isTerminator).complete

end Sys2Proof.Machine
end

