-- ==== Sys2Proof/Machine/Serializer.lean ====
section
/-! DEFINITION. The serializer commands CONSTRUCT, SERIALIZE and RECALC_CHECKSUM (40_serializer.md R103,
R110, R112). -/

namespace Sys2Proof.Machine

/-- The packet CONSTRUCT builds, its checksum still to be computed (R103). -/
def builtPacket (u : UnalignedPayload) (src dst : Half) (payload : List Byte) (seq ackn : Word)
    (freq : BitVec 5) (ack syn fin : Bool) (win : Word) : Packet :=
  Packet.assignPayload u payload
    { srcPort := src, dstPort := dst, seqNumber := seq, ackNumber := ackn, frequency := freq
      ack := ack, syn := syn, fin := fin, dataOffset := 0, checksum := 0, windowSize := win
      payload := [] }

/-- CONSTRUCT (R103). -/
def execConstruct (src dst : Half) (payload : List Byte) (seq ackn : Word) (freq : BitVec 5)
    (ack syn fin : Bool) (win : Word) (s : State) : Result :=
  .next <| checkPayload payload s
    (s.loadPacket
      ((builtPacket s.params.unalignedPayload src dst payload seq ackn freq ack syn fin win).sealed
        s.params.digestIntOrder)).complete

/-- SERIALIZE (R110). -/
def execSerialize (s : State) : Result :=
  .next <| needsPacket s fun p => (s.loadOut (ser p)).complete

/-- RECALC_CHECKSUM (R112). -/
def execRecalcChecksum (s : State) : Result :=
  .next <| mutatePacket (Packet.sealed s.params.digestIntOrder) s

end Sys2Proof.Machine
end

