-- ==== Sys2Proof/Machine/Dispatch.lean ====
section
/-! DEFINITION. One arm per command: the meaning it has once it is decoded (30_encoding.md R82). -/

namespace Sys2Proof.Machine

def exec (i : Instr) (s : State) : Host.Outcome State Fault Refusal :=
  match i with
  -- the serializer (40_serializer.md) and the checksum engine (41_checksum.md)
  | .construct src dst payload seq ackn freq ack syn fin win => Sys2Proof.Machine.execConstruct src dst payload seq ackn freq ack syn fin win s
  | .serialize => Sys2Proof.Machine.execSerialize s
  | .calcChecksum input => Sys2Proof.Machine.execCalcChecksum input s
  | .recalcChecksum => Sys2Proof.Machine.execRecalcChecksum s
  -- the parser (42_parser.md)
  | .parse input => Sys2Proof.Machine.execParse input s
  | .isTerminator => Sys2Proof.Machine.execIsTerminator s
  -- the field mutations (40_serializer.md section 5)
  | .setSrcPort v => Sys2Proof.Machine.execSetSrcPort v s
  | .setDstPort v => Sys2Proof.Machine.execSetDstPort v s
  | .setSeq v => Sys2Proof.Machine.execSetSeq v s
  | .setAckNumber v => Sys2Proof.Machine.execSetAckNumber v s
  | .setFrequency v => Sys2Proof.Machine.execSetFrequency v s
  | .setAckFlag v => Sys2Proof.Machine.execSetAckFlag v s
  | .setSynFlag v => Sys2Proof.Machine.execSetSynFlag v s
  | .setFinFlag v => Sys2Proof.Machine.execSetFinFlag v s
  | .setWindow v => Sys2Proof.Machine.execSetWindow v s
  | .setPayload payload => Sys2Proof.Machine.execSetPayload payload s

end Sys2Proof.Machine
end

