-- ==== Sys2Proof/Machine/Events.lean ====
section
/-! DEFINITION. What each event at the block's interface does (10_state.md R28, 30_encoding.md R84, R87,
70_reset_and_hazards.md R230 to R238). -/

namespace Sys2Proof.Machine

/-- The block performs the command on the lines `l`: it decodes before anything else (R84), and the
pseudocode of the command runs after decoding. -/
def perform (l : Inputs) (s : State) : Result :=
  match decode s.params l with
  | .ok i => exec i s
  | .error _ => .next (s.illegalCommand l.cmd)

/-- The command in progress completes: as its rule says, or as a race (R233, R238). -/
def State.finish (c : InProgress) (s : State) : Result :=
  if c.raced then .next (s.raceOutcome c.inputs) else perform c.inputs s

/-- The host presents the command on the lines, and the block performs it in one step; while `BUSY = 1` it
is not accepted and has no effect (R5, R234). -/
def State.onCommand (s : State) : Result :=
  match s.inProgress with
  | none => perform s.lines s
  | some _ => .next s

/-- The host presents the command on the lines, and the block accepts it; while `BUSY = 1` it is not
accepted and has no effect (R28, R234). -/
def State.onAccept (s : State) : Result :=
  match s.inProgress with
  | none => .next s.accept
  | some _ => .next s

/-- The command in progress, if there is one, completes (R238). -/
def State.onComplete (s : State) : Result :=
  match s.inProgress with
  | none => .next s
  | some c => s.finish c

/-- The host's side of ROUNDTRIP after its SERIALIZE: if `STATUS = OK` it copies `OUT[0..OUT_LEN)` to `IN`,
sets `IN_LEN` and presents PARSE next (R87). It waits for `BUSY = 0` (R235), so while `BUSY = 1` it does
nothing. Bytes of `OUT` read while `OUT_VALID = 0` hold no value, and reading them is a fault (10_state.md R33).
DESIGN CHOICE: the copy is one event (log 11), and bytes of `IN` at or beyond `OUT_LEN`
are as if never written (log 20). -/
def State.onParseOut (s : State) : Result :=
  match s.inProgress, s.status with
  | none, .ok =>
    if s.outValid ∨ s.out = [] then
      .next
        { s.drive
            { s.lines with
              cmd := Opcode.parse.toByte.setWidth 32, inBuf := s.out
              inLen := BitVec.ofNat 16 s.out.length } with
          events := .command :: s.events }
    else .fault (.noValue (.out 0))
  | _, _ => .next s

/-- What an event does, once it is taken from the head of `events`. -/
def State.handle (s : State) : Event → Result
  | .command => s.onCommand
  | .accept => s.onAccept
  | .complete => s.onComplete
  | .drive l => .next (s.drive l)
  | .read r => s.hostRead r
  | .reset => .next s.applyReset
  | .parseOut => s.onParseOut

/-- The machine's step: the next event; with none left, a command in progress completes (R238), and an idle
block stays as it is (R231). DESIGN CHOICE: a step with nothing to do is a step (log 12). -/
def State.advance (s : State) : Result :=
  match s.events with
  | [] => s.onComplete
  | e :: rest => State.handle { s with events := rest } e

end Sys2Proof.Machine
end

