-- ==== Sys2Proof/Machine/Step.lean ====
section
/-! DEFINITION. The one step of the machine, and how a command word is placed for the next step. -/

namespace Sys2Proof.Machine

/-- One step: what happens next at the block's interface (Machine/Events.lean). -/
def step (s : State) : Host.Outcome State Fault Refusal := s.advance

/-- The state in which the next step performs the command word `w`, with every operand input 0: the word on
the line `CMD`, the command presented next, and `BUSY` 0, as acceptance asks (log 16). -/
def State.withFetchWord (s : State) (nbits w : Nat) : State :=
  { s with
    lines := { Inputs.zero with cmd := BitVec.ofNat 32 (w % 2 ^ nbits) }
    events := .command :: s.events
    inProgress := none }

end Sys2Proof.Machine
end

