-- ==== Sys2Proof/Machine/Pseudo.lean ====
section
/-! DEFINITION. The pseudo-commands and what each line makes the host do (30_encoding.md R86, R87). -/

namespace Sys2Proof.Machine

/-- A CONSTRUCT line, whose operands other than `src`, `dst` and `payload` may be omitted (R87). -/
structure ConstructLine where
  src     : Half
  dst     : Half
  payload : List Byte
  seq     : Option Word
  ackn    : Option Word
  freq    : Option (BitVec 5)
  ack     : Option Bool
  syn     : Option Bool
  fin     : Option Bool
  win     : Option Word
deriving DecidableEq, Repr

/-- The command a CONSTRUCT line stands for: an omitted operand takes the source's default (R87). -/
def ConstructLine.toInstr (c : ConstructLine) : Instr :=
  .construct c.src c.dst c.payload (c.seq.getD 0) (c.ackn.getD 0) (c.freq.getD 1)
    (c.ack.getD false) (c.syn.getD false) (c.fin.getD false) (c.win.getD 1024)

/-- The SET_* commands, which SEAL takes (R87). -/
def isSet : Instr → Bool
  | .setSrcPort _ | .setDstPort _ | .setSeq _ | .setAckNumber _ | .setFrequency _ | .setAckFlag _
  | .setSynFlag _ | .setFinFlag _ | .setWindow _ | .setPayload _ => true
  | .construct _ _ _ _ _ _ _ _ _ _ | .serialize | .calcChecksum _ | .recalcChecksum | .parse _
  | .isTerminator => false

/-- A line of the syntax: a command of R86 or a pseudo-command of R87. -/
inductive Line where
  | command (i : Instr)
  | construct (c : ConstructLine)
  | seal (i : Instr)
  | roundtrip
deriving DecidableEq, Repr

/-- The host drives what a command line assembles to, and presents the command (R80, R86). -/
def issue (i : Instr) : List Event := [.drive (encode i), .command]

/-- The expansion of a line (R86, R87). -/
def Line.expand : Line → List Event
  | .command i => issue i
  | .construct c => issue c.toInstr
  | .seal i => issue i ++ issue .recalcChecksum
  | .roundtrip => issue .serialize ++ [.parseOut]

end Sys2Proof.Machine
end

