-- ==== Sys2Proof/Safety.lean ====
section
/-! DEFINITION. The terms claims are stated in: how a command ended, what it left unchanged, the input lines
of an illegal command, and the invariants of the state. -/

namespace Sys2Proof.Machine

/-- The command ended with OK: `STATUS`, the error registers and `BUSY` as 60_exceptions.md R202 says. -/
def EndsOk (t : State) : Prop :=
  t.peek .status = some 0x1 ∧ t.peek .errExpected = some 0 ∧ t.peek .errActual = some 0 ∧
    t.peek .errOffset = some 0 ∧ t.peek .busy = some 0

/-- The command ended with the status code `code` and the given error context (R200, R201, R203). -/
def EndsWith (code expected actual offset : Word) (t : State) : Prop :=
  t.peek .status = some code ∧ t.peek .errExpected = some expected ∧
    t.peek .errActual = some actual ∧ t.peek .errOffset = some offset ∧ t.peek .busy = some 0

/-- Every register outside `written` reads as before; `STATUS`, the error registers and `BUSY`, which every
command writes, are stated beside it (R27, R29, R202, R203). Byte by byte for `OUT` and the payload. -/
def KeepsOthers (written : Reg → Prop) (s t : State) : Prop :=
  ∀ r, ¬ written r → r.isStatus = false → r ≠ .busy → t.peek r = s.peek r

/-- The command failed: nothing changed but `STATUS`, the error registers and `BUSY` (R203). -/
def FailsWith (code expected actual offset : Word) (s t : State) : Prop :=
  EndsWith code expected actual offset t ∧ KeepsOthers (fun _ => False) s t

/-- What no command writes: the parameters (70_reset_and_hazards.md R231), the input lines
(20_memory.md R50), and the model's own fields. -/
def KeepsHostSide (s t : State) : Prop :=
  t.params = s.params ∧ t.lines = s.lines ∧ t.events = s.events ∧ t.draws = s.draws ∧
    t.readout = s.readout

/-- The values of `OPC` that select a command (30_encoding.md R82). -/
def assignedOpcodes : List Nat :=
  [0x01, 0x02, 0x03, 0x04, 0x05, 0x06, 0x10, 0x11, 0x12, 0x13, 0x14, 0x15, 0x16, 0x17, 0x18, 0x19]

/-- The lines of an illegal command: the three cases of R84, in numbers. -/
def IllegalLines (p : Params) (l : Inputs) : Prop :=
  l.cmd.toNat / 256 ≠ 0 ∨ l.cmd.toNat % 256 ∉ assignedOpcodes ∨
    (l.cmd.toNat % 256 ∈ [0x01, 0x03, 0x05, 0x19] ∧ p.maxInBytes < l.inLen.toNat)

/-- Two settings of the lines agree on every input that the command `CMD` lists under "reads"
(R82, R83). -/
def AgreeOnReads (l l' : Inputs) : Prop :=
  match l.cmd.toNat with
  | 0x01 =>
    l.aSrc = l'.aSrc ∧ l.aDst = l'.aDst ∧ l.aSeq = l'.aSeq ∧ l.aAckn = l'.aAckn ∧
      l.aFreq = l'.aFreq ∧ l.aFlags = l'.aFlags ∧ l.aWin = l'.aWin ∧ l.inLen = l'.inLen ∧
      l.input = l'.input
  | 0x03 => l.inLen = l'.inLen ∧ l.input = l'.input
  | 0x05 => l.inLen = l'.inLen ∧ l.input = l'.input
  | 0x10 => l.aSrc = l'.aSrc
  | 0x11 => l.aDst = l'.aDst
  | 0x12 => l.aSeq = l'.aSeq
  | 0x13 => l.aAckn = l'.aAckn
  | 0x14 => l.aFreq = l'.aFreq
  | 0x15 => l.aFlags.getLsbD 2 = l'.aFlags.getLsbD 2
  | 0x16 => l.aFlags.getLsbD 1 = l'.aFlags.getLsbD 1
  | 0x17 => l.aFlags.getLsbD 0 = l'.aFlags.getLsbD 0
  | 0x18 => l.aWin = l'.aWin
  | 0x19 => l.inLen = l'.inLen ∧ l.input = l'.input
  | _ => True

/-- The byte sequence a command takes from `IN`; empty for a command that reads none (30_encoding.md R82). -/
def inputOf : Instr → List Byte
  | .construct _ _ payload _ _ _ _ _ _ _ => payload
  | .calcChecksum input => input
  | .parse input => input
  | .setPayload payload => payload
  | .serialize | .recalcChecksum | .isTerminator | .setSrcPort _ | .setDstPort _ | .setSeq _
  | .setAckNumber _ | .setFrequency _ | .setAckFlag _ | .setSynFlag _ | .setFinFlag _
  | .setWindow _ => []

/-- The commands that need a packet: SERIALIZE, RECALC_CHECKSUM, IS_TERMINATOR and every SET_*
(40_serializer.md R101). -/
def needsPkt (i : Instr) : Bool := i = .serialize ∨ i = .recalcChecksum ∨ i = .isTerminator ∨ isSet i

/-- The stores stay within their capacity: the payload within 1020 bytes, `OUT` within 1040, `IN` within
`MAX_IN_BYTES` (10_state.md R22, R30, 20_memory.md R50). -/
def State.WithinCapacity (s : State) : Prop :=
  (∀ p, s.pkt = some p → p.payload.length ≤ 1020) ∧ s.out.length ≤ 1040 ∧
    s.lines.inBuf.length ≤ s.params.maxInBytes

/-- `PKT.data_offset = ceil(PKT.payload_len / 4)` whenever `PKT_VALID = 1` (10_state.md R23). -/
def State.OffsetDerived (s : State) : Prop :=
  ∀ p, s.pkt = some p → p.dataOffset.toNat = (p.payload.length + 3) / 4

/-- Under `PAD_ZERO`, `PKT.payload_len = 4 × PKT.data_offset` whenever `PKT_VALID = 1` (R24). -/
def State.PaddedPayload (s : State) : Prop :=
  s.params.unalignedPayload = .padZero →
    ∀ p, s.pkt = some p → p.payload.length = 4 * p.dataOffset.toNat

/-- No command in progress has had an input changed (70_reset_and_hazards.md R233). -/
def State.StableInputs (s : State) : Prop := ∀ c, s.inProgress = some c → c.raced = false

/-- The next step completes a command whose inputs the host changed: the one step whose outcome R233 leaves
unspecified. The step that no event is left for completes the command too (log 12). -/
def State.CompletesRace (s : State) : Prop :=
  (∃ c, s.inProgress = some c ∧ c.raced = true) ∧
    (s.events = [] ∨ ∃ rest, s.events = .complete :: rest)

/-- The step completes: it neither faults nor is refused. -/
def State.Steps (s : State) : Prop := ∃ t, step s = .next t

end Sys2Proof.Machine
end

