-- ==== Sys2Proof/Certificates/Slice0/Obligations.lean ====
section
/-! DEFINITION. The statements for the provers. Each docstring says which rule of spec/ it formalises. -/

open Sys2Proof Sys2Proof.Machine

/-! ### Encoding (30_encoding.md) -/

/-- R82. Each of the sixteen values of `CMD` selects its command with the inputs it lists under "reads",
whenever the input fits `IN`. -/
def Obligations.OpcodeMapSelectsCommands : Prop :=
  ∀ (p : Params) (l : Inputs), l.inLen.toNat ≤ p.maxInBytes →
    decode p { l with cmd := 0x00000001 } =
      .ok (.construct l.aSrc l.aDst l.input l.aSeq l.aAckn l.aFreq (l.aFlags.getLsbD 2)
        (l.aFlags.getLsbD 1) (l.aFlags.getLsbD 0) l.aWin) ∧
    decode p { l with cmd := 0x00000002 } = .ok .serialize ∧
    decode p { l with cmd := 0x00000003 } = .ok (.calcChecksum l.input) ∧
    decode p { l with cmd := 0x00000004 } = .ok .recalcChecksum ∧
    decode p { l with cmd := 0x00000005 } = .ok (.parse l.input) ∧
    decode p { l with cmd := 0x00000006 } = .ok .isTerminator ∧
    decode p { l with cmd := 0x00000010 } = .ok (.setSrcPort l.aSrc) ∧
    decode p { l with cmd := 0x00000011 } = .ok (.setDstPort l.aDst) ∧
    decode p { l with cmd := 0x00000012 } = .ok (.setSeq l.aSeq) ∧
    decode p { l with cmd := 0x00000013 } = .ok (.setAckNumber l.aAckn) ∧
    decode p { l with cmd := 0x00000014 } = .ok (.setFrequency l.aFreq) ∧
    decode p { l with cmd := 0x00000015 } = .ok (.setAckFlag (l.aFlags.getLsbD 2)) ∧
    decode p { l with cmd := 0x00000016 } = .ok (.setSynFlag (l.aFlags.getLsbD 1)) ∧
    decode p { l with cmd := 0x00000017 } = .ok (.setFinFlag (l.aFlags.getLsbD 0)) ∧
    decode p { l with cmd := 0x00000018 } = .ok (.setWindow l.aWin) ∧
    decode p { l with cmd := 0x00000019 } = .ok (.setPayload l.input)

/-- R84. The decoder rejects exactly the illegal settings of the lines: a nonzero reserved bit, an opcode
outside the sixteen values, or an input longer than `MAX_IN_BYTES` for a command that reads `IN`; every
other setting selects a command. -/
def Obligations.DecodeRejectsExactlyIllegalLines : Prop :=
  ∀ (p : Params) (l : Inputs),
    (IllegalLines p l → ∃ e, decode p l = .error e) ∧ (¬ IllegalLines p l → ∃ i, decode p l = .ok i)

/-- R84. An illegal command, presented while `BUSY = 0`, ends with `raise ILLEGAL_COMMAND(0, CMD, 0)` and
changes nothing but `STATUS` and the error registers; every setting of the lines that is not illegal
selects a command. -/
def Obligations.IllegalCommandEndsWithStatus : Prop :=
  ∀ (s : State) (rest : List Event), s.events = .command :: rest → s.inProgress = none →
    (IllegalLines s.params s.lines →
      ∃ t, step s = .next t ∧ FailsWith 0x7 0 s.lines.cmd 0 s t) ∧
    (¬ IllegalLines s.params s.lines → ∃ i, decode s.params s.lines = .ok i)

/-- Decoding what a well-formed command line assembles to gives the command back, with every operand at
every value its input can carry (R80, R82, R86). -/
def Obligations.DecodeOfEncode : Prop :=
  ∀ (p : Params) (i : Instr), i.WellFormed p → decode p (encode i) = .ok i

/-- What is decoded is well formed and was selected by its own command word (R81, R84). -/
def Obligations.DecodedIsWellFormed : Prop :=
  ∀ (p : Params) (l : Inputs) (i : Instr), decode p l = .ok i →
    i.WellFormed p ∧ (encode i).cmd = l.cmd

/-- Every input a command does not list under "reads" has no effect: from two states that differ only in
such inputs, the same command word decodes to the same, the step that performs the command leaves every register
alike, and so does the step that completes it after it was accepted (R83). The completion clause rests on the
model's choices: the split into acceptance and completion (log 4) and, for a raced command, the numbering of the
free draws (log 5) and that the command `CMD` named at acceptance counts (log 10). -/
def Obligations.UnreadInputsAreIgnored : Prop :=
  ∀ (s : State) (l' : Inputs) (rest : List Event), s.lines.cmd = l'.cmd → AgreeOnReads s.lines l' →
    decode s.params s.lines = decode s.params l' ∧
    (s.events = .command :: rest → s.inProgress = none →
      ∃ t t', step s = .next t ∧ step { s with lines := l' } = .next t' ∧ ∀ r, t.peek r = t'.peek r) ∧
    (s.events = .complete :: rest → ∀ raced : Bool,
      ∃ t t', step { s with inProgress := some { inputs := s.lines, raced := raced } } = .next t ∧
        step { s with inProgress := some { inputs := l', raced := raced } } = .next t' ∧
        ∀ r, t.peek r = t'.peek r)

/-! ### The step and the host's events (10_state.md, 70_reset_and_hazards.md) -/

/-- A step runs the decoded command: with `BUSY = 0` and a command presented, the step is `exec` of what the
lines decode to, once the event is taken (R5, R84). -/
def Obligations.StepRunsDecodedCommand : Prop :=
  ∀ (s : State) (rest : List Event) (i : Instr), s.events = .command :: rest →
    s.inProgress = none → decode s.params s.lines = .ok i →
    step s = exec i { s with events := rest }

/-- R234. A command presented while `BUSY = 1` is not accepted and has no effect: only the event is gone. -/
def Obligations.CommandWhileBusyHasNoEffect : Prop :=
  ∀ (s : State) (rest : List Event),
    (s.events = .command :: rest ∨ s.events = .accept :: rest) → s.peek .busy = some 1 →
    step s = .next { s with events := rest }

/-- `BUSY` is 1 from the step that accepts a command, nothing else changes by then; it stays 1 over every step
but a completion or reset; and it is 0 again after the step that completes the command, whether an event asks for
it or no event is left. From 0 it stays 0 over every step that does not accept a command, one that performs a
command whole included (R28). The split into acceptance and completion is log 4, and that a step with no event
completes the command is log 12. -/
def Obligations.BusyFromAcceptToComplete : Prop :=
  (∀ (s : State) (rest : List Event), s.events = .accept :: rest → s.peek .busy = some 0 →
    ∃ t, step s = .next t ∧ t.peek .busy = some 1 ∧ ∀ r, r ≠ .busy → t.peek r = s.peek r) ∧
  (∀ (s t : State) (e : Event) (rest : List Event), s.events = e :: rest → e ≠ .complete →
    e ≠ .reset → s.peek .busy = some 1 → step s = .next t → t.peek .busy = some 1) ∧
  (∀ (s : State) (rest : List Event), s.events = .complete :: rest → s.peek .busy = some 1 →
    ∃ t, step s = .next t ∧ t.peek .busy = some 0) ∧
  (∀ s : State, s.events = [] → s.peek .busy = some 1 →
    ∃ t, step s = .next t ∧ t.peek .busy = some 0) ∧
  (∀ s t : State, (∀ rest, s.events ≠ .accept :: rest) → s.peek .busy = some 0 →
    step s = .next t → t.peek .busy = some 0)

/-- A command that is seen busy and one that is performed in one step leave the same state: every command is
atomic as a whole (R5, R58). -/
def Obligations.AcceptThenCompleteIsOneStep : Prop :=
  ∀ (s u : State) (rest : List Event), s.events = .accept :: .complete :: rest →
    s.inProgress = none → step s = .next u →
    step u = step { s with events := .command :: rest }

/-- R233. When the host changes an input while `BUSY = 1`, the command in progress races; when it completes,
every register its rule never writes keeps its value, and `BUSY` is 0. -/
def Obligations.RacedCommandKeepsUnwrittenRegisters : Prop :=
  (∀ (s : State) (rest : List Event) (c : InProgress) (l : Inputs), s.events = .drive l :: rest →
    s.inProgress = some c → l.inBuf.length ≤ s.params.maxInBytes → l ≠ s.lines →
    ∃ t, step s = .next t ∧ t.inProgress = some { c with raced := true } ∧
      ∀ r, t.peek r = s.peek r) ∧
  (∀ (s : State) (rest : List Event) (c : InProgress), s.events = .complete :: rest →
    s.inProgress = some c → c.raced = true →
    ∃ t, step s = .next t ∧ t.peek .busy = some 0 ∧
      ∀ r, mayWrite c.inputs r = false → r ≠ .busy → t.peek r = s.peek r)

/-- R33. Reading a register that holds no value is a fault, with `BUSY = 0` or with a command in progress that
may not write it (R236): `PKT` fields without a packet, payload bytes at or beyond `payload_len`, `OUT` bytes
without a valid output or at or beyond `OUT_LEN`, `RES_CHK` and `RES_TERM` without their valid bits. -/
def Obligations.ReadingNoValueFaults : Prop :=
  ∀ (s : State) (rest : List Event) (r : Reg), s.events = .read r :: rest →
    (∀ c, s.inProgress = some c → mayWrite c.inputs r = false) →
    ((s.pkt = none ∧ r.inPacket = true ∧ r ≠ .pktValid) ∨
      (∃ p i, s.pkt = some p ∧ r = .payload i ∧ p.payload.length ≤ i) ∨
      (∃ i, r = .out i ∧ (s.outValid = false ∨ s.out.length ≤ i)) ∨
      (r = .resChk ∧ s.resChk = none) ∨ (r = .resTerm ∧ s.resTerm = none)) →
    step s = .fault (.noValue r) ∨ step s = .fault (.noSuchByte r)

/-- R34. While `BUSY = 0`, the host may read every register, and a register that holds a value returns it. -/
def Obligations.ReadingReturnsTheValue : Prop :=
  ∀ (s : State) (rest : List Event) (r : Reg) (w : Word), s.events = .read r :: rest →
    s.inProgress = none → s.WithinCapacity → s.peek r = some w →
    ∃ t, step s = .next t ∧ t.readout = some w

/-- R236. While `BUSY = 1`, a register the command in progress may not write reads as its current value. -/
def Obligations.BusyReadOfUnwrittenRegister : Prop :=
  ∀ (s : State) (rest : List Event) (c : InProgress) (r : Reg) (w : Word),
    s.events = .read r :: rest → s.inProgress = some c → s.WithinCapacity →
    mayWrite c.inputs r = false → s.peek r = some w →
    ∃ t, step s = .next t ∧ t.readout = some w

/-- Reading has no side effect: whatever is read, and whether the block is busy or not, every register, the
input lines and the command in progress stay as they are (R58). -/
def Obligations.ReadingHasNoSideEffect : Prop :=
  ∀ (s t : State) (rest : List Event) (r : Reg), s.events = .read r :: rest → step s = .next t →
    (∀ r', t.peek r' = s.peek r') ∧ t.lines = s.lines ∧ t.inProgress = s.inProgress ∧
      t.events = rest

/-- The host's side of ROUNDTRIP, while `BUSY = 0` (R87): if `STATUS = OK`, the block next performs PARSE with
`IN[0..IN_LEN)` = `OUT[0..OUT_LEN)`; otherwise nothing happens. No register changes either way. -/
def Obligations.RoundtripPresentsOutputToParse : Prop :=
  ∀ (s : State) (rest : List Event), s.events = .parseOut :: rest → s.inProgress = none →
    s.outValid = true → s.WithinCapacity → s.params.Legal →
    ∃ t, step s = .next t ∧ (∀ r, t.peek r = s.peek r) ∧
      (s.status = .ok → t.events = .command :: rest ∧
        decode t.params t.lines = .ok (.parse s.out)) ∧
      (s.status ≠ .ok → t.events = rest ∧ t.lines = s.lines)

/-- Only a read by the host can fault, and no step is refused: whatever the command, the operands and the
state, a step without a read completes, and no step from any state answers a refusal (R202, R203, R207, R208).
That the step of an idle block with no event completes, and leaves it as it is, is log 12. -/
def Obligations.OnlyReadsFault : Prop :=
  (∀ s : State,
    (∀ r rest, s.events ≠ .read r :: rest) → (∀ rest, s.events ≠ .parseOut :: rest) →
    ∃ t, step s = .next t) ∧
  ∀ (s : State) (r : Refusal), step s ≠ .refused r

/-- R38. What every register holds after reset. -/
def Obligations.ResetValues : Prop :=
  State.reset.peek .pktValid = some 0 ∧ State.reset.peek .status = some 0x0 ∧
    State.reset.peek .busy = some 0 ∧ State.reset.peek .errExpected = some 0 ∧
    State.reset.peek .errActual = some 0 ∧ State.reset.peek .errOffset = some 0 ∧
    State.reset.peek .outValid = some 0 ∧ State.reset.peek .outLen = some 0 ∧
    State.reset.peek .chkValid = some 0 ∧ State.reset.peek .termValid = some 0 ∧
    (∀ r : Reg, r.inPacket = true → r ≠ .pktValid → State.reset.peek r = none) ∧
    (∀ i, State.reset.peek (.out i) = none) ∧
    State.reset.peek .resChk = none ∧ State.reset.peek .resTerm = none

/-- R230. Asserting reset, in any state and with a command in progress or not, sets every register to its
reset value and leaves the inputs as they are. -/
def Obligations.ResetFromAnyState : Prop :=
  ∀ (s : State) (rest : List Event), s.events = .reset :: rest →
    ∃ t, step s = .next t ∧ (∀ r, t.peek r = State.reset.peek r) ∧ t.inProgress = none ∧
      t.lines = s.lines

/-- The parameters are fixed when the block is built: no step, of a command, of reset or of the host, changes
them (R231). -/
def Obligations.ParametersNeverChange : Prop :=
  ∀ s t : State, step s = .next t → t.params = s.params

/-! ### CONSTRUCT, SERIALIZE and RECALC_CHECKSUM (40_serializer.md) -/

/-- R103. CONSTRUCT is `CMD = 0x00000001`, illegal if `IN_LEN > MAX_IN_BYTES`. With a payload of more than
1020 bytes it ends with PAYLOAD_TOO_LONG. Otherwise it completes: it loads every field of `PKT` from the
operands, derives the payload and `data_offset` by R102, computes the checksum over the serialization with
the checksum field 0, ends with OK, and writes nothing else, whatever `PKT` held before. -/
def Obligations.ConstructLoadsPacket : Prop :=
  (∀ (p : Params) (l : Inputs), l.cmd = 0x00000001 →
    (l.inLen.toNat ≤ p.maxInBytes → decode p l =
      .ok (.construct l.aSrc l.aDst l.input l.aSeq l.aAckn l.aFreq (l.aFlags.getLsbD 2)
        (l.aFlags.getLsbD 1) (l.aFlags.getLsbD 0) l.aWin)) ∧
    (p.maxInBytes < l.inLen.toNat → decode p l = .error .inputTooLong)) ∧
  ∀ (src dst : Half) (payload : List Byte) (seq ackn : Word) (freq : BitVec 5) (ack syn fin : Bool)
    (win : Word) (s : State),
    (Instr.construct src dst payload seq ackn freq ack syn fin win).WellFormed s.params →
    (1020 < payload.length →
      ∃ t, exec (.construct src dst payload seq ackn freq ack syn fin win) s = .next t ∧
        FailsWith 0x6 1020 (BitVec.ofNat 32 payload.length) 1020 s t) ∧
    (payload.length ≤ 1020 →
      ∃ t p, exec (.construct src dst payload seq ackn freq ack syn fin win) s = .next t ∧
        t.pkt = some p ∧ p.srcPort = src ∧ p.dstPort = dst ∧ p.seqNumber = seq ∧
        p.ackNumber = ackn ∧ p.frequency = freq ∧ p.ack = ack ∧ p.syn = syn ∧ p.fin = fin ∧
        p.windowSize = win ∧ p.payload = storedPayload s.params.unalignedPayload payload ∧
        p.dataOffset.toNat = (payload.length + 3) / 4 ∧
        p.checksum = chk s.params.digestIntOrder (ser { p with checksum := 0 }) ∧
        EndsOk t ∧ KeepsOthers (fun r => r.inPacket = true) s t)

/-- The payload that CONSTRUCT and SET_PAYLOAD store: under PAD_ZERO the operand followed by 0 to 3 bytes 0x00,
up to the next multiple of 4, and under LEGACY exactly the operand; so `payload_len` is then
`4 × ceil(n / 4)`, or `n` (R102, R24). -/
def Obligations.StoredPayloadIsPadded : Prop :=
  ∀ input : List Byte,
    (∃ k, k ≤ 3 ∧ storedPayload .padZero input = input ++ zeros k ∧
      (storedPayload .padZero input).length = 4 * ((input.length + 3) / 4)) ∧
    storedPayload .legacy input = input

/-- R201. The error context of each status code, for every command: what `ERR_EXPECTED`, `ERR_ACTUAL` and
`ERR_OFFSET` hold when the command ends with it. -/
def Obligations.ErrorContextOfEachStatus : Prop :=
  (∀ (i : Instr) (s t : State), i.WellFormed s.params → exec i s = .next t →
    (t.status = .ok → EndsWith 0x1 0 0 0 t) ∧
    (t.status = .tooShort →
      EndsWith 0x2 20 (BitVec.ofNat 32 i.inputLength) (BitVec.ofNat 32 i.inputLength) t) ∧
    (t.status = .checksumMismatch →
      EndsWith 0x3 ((chkZ s.params.digestIntOrder (inputOf i)).setWidth 32)
        ((be16 (byteAt (inputOf i) 14) (byteAt (inputOf i) 15)).setWidth 32) 14 t) ∧
    (t.status = .truncatedPayload →
      EndsWith 0x4 (BitVec.ofNat 32 (20 + 4 * (byteAt (inputOf i) 13).toNat))
        (BitVec.ofNat 32 i.inputLength) (BitVec.ofNat 32 i.inputLength) t) ∧
    (t.status = .noPacket → EndsWith 0x5 0 0 0 t) ∧
    (t.status = .payloadTooLong →
      EndsWith 0x6 1020 (BitVec.ofNat 32 i.inputLength) 1020 t)) ∧
  (∀ (s t : State) (rest : List Event), s.events = .command :: rest → s.inProgress = none →
    IllegalLines s.params s.lines → step s = .next t → EndsWith 0x7 0 s.lines.cmd 0 t)

/-- R104. After a CONSTRUCT that ends with OK, the checksum is the checksum of the packet's own
serialization with bytes 14 and 15 zeroed, so that buffer passes the checksum check of PARSE. -/
def Obligations.ConstructedChecksumCoversPacket : Prop :=
  ∀ (src dst : Half) (payload : List Byte) (seq ackn : Word) (freq : BitVec 5) (ack syn fin : Bool)
    (win : Word) (s t : State),
    exec (.construct src dst payload seq ackn freq ack syn fin win) s = .next t → t.status = .ok →
    ∃ p, t.pkt = some p ∧ p.checksum = chkZ s.params.digestIntOrder (ser p) ∧
      storedChecksum (ser p) = chkZ s.params.digestIntOrder (ser p)

/-- R110. SERIALIZE is `CMD = 0x00000002`. Without a packet it ends with NO_PACKET. On a packet it completes:
`OUT` is `ser(PKT)`, byte by byte, `OUT_LEN` is `20 + payload_len`, `OUT_VALID` is 1, the bytes beyond hold
no value, and nothing else changes. -/
def Obligations.SerializeEmitsWireForm : Prop :=
  (∀ (p : Params) (l : Inputs), l.cmd = 0x00000002 → decode p l = .ok .serialize) ∧
  ∀ s : State,
    (s.pkt = none → ∃ t, exec .serialize s = .next t ∧ FailsWith 0x5 0 0 0 s t) ∧
    (∀ p : Packet, s.pkt = some p → p.payload.length ≤ 1020 →
      ∃ t, exec .serialize s = .next t ∧
        (∀ i, (h : i < (ser p).length) → t.peek (.out i) = some ((ser p)[i].setWidth 32)) ∧
        (∀ i, 20 + p.payload.length ≤ i → t.peek (.out i) = none) ∧
        t.peek .outLen = some (BitVec.ofNat 32 (20 + p.payload.length)) ∧
        t.peek .outValid = some 1 ∧ EndsOk t ∧
        KeepsOthers (fun r => r = .outLen ∨ r = .outValid ∨ ∃ i, r = .out i) s t)

/-- R71. The byte map of a serialized packet, every byte as a number: two bytes a port, four bytes a number,
byte 12 the frequency and the flags, byte 13 `data_offset`, two bytes the stored checksum, then the
payload from offset 20. -/
def Obligations.SerializedByteMap : Prop :=
  ∀ p : Packet,
    ((ser p).take 20).map BitVec.toNat =
      [p.srcPort.toNat / 256, p.srcPort.toNat % 256, p.dstPort.toNat / 256, p.dstPort.toNat % 256,
        p.seqNumber.toNat / 2 ^ 24, p.seqNumber.toNat / 2 ^ 16 % 256, p.seqNumber.toNat / 256 % 256,
        p.seqNumber.toNat % 256,
        p.ackNumber.toNat / 2 ^ 24, p.ackNumber.toNat / 2 ^ 16 % 256, p.ackNumber.toNat / 256 % 256,
        p.ackNumber.toNat % 256,
        8 * p.frequency.toNat + 4 * p.ack.toNat + 2 * p.syn.toNat + p.fin.toNat,
        p.dataOffset.toNat, p.checksum.toNat / 256, p.checksum.toNat % 256,
        p.windowSize.toNat / 2 ^ 24, p.windowSize.toNat / 2 ^ 16 % 256,
        p.windowSize.toNat / 256 % 256, p.windowSize.toNat % 256] ∧
    (ser p).drop 20 = p.payload

/-- R72. Byte 12 is a bijection between the frequency with the three flags and the 256 byte values: packing
then unpacking gives the four fields back, and unpacking then packing gives the byte back. -/
def Obligations.FlagBytePacksAndUnpacks : Prop :=
  (∀ (f : BitVec 5) (a s n : Bool),
    (flagByte f a s n).toNat = 8 * f.toNat + 4 * a.toNat + 2 * s.toNat + n.toNat ∧
      frequencyOf (flagByte f a s n) = f ∧ ackOf (flagByte f a s n) = a ∧
      synOf (flagByte f a s n) = s ∧ finOf (flagByte f a s n) = n) ∧
  (∀ b : Byte, flagByte (frequencyOf b) (ackOf b) (synOf b) (finOf b) = b)

/-- R101. SERIALIZE, RECALC_CHECKSUM, IS_TERMINATOR and every SET_* without a packet end with NO_PACKET,
error context (0, 0, 0), and change nothing else; for SET_PAYLOAD that comes before the length check. -/
def Obligations.CommandsWithoutPacketFail : Prop :=
  ∀ (i : Instr) (s : State), needsPkt i = true → s.pkt = none →
    ∃ t, exec i s = .next t ∧ FailsWith 0x5 0 0 0 s t

/-- R112. RECALC_CHECKSUM is `CMD = 0x00000004`. Without a packet it ends with NO_PACKET. On a packet it
completes: `PKT.checksum` becomes the checksum of the packet's serialization with the checksum field 0,
which is the zeroed-field checksum, whatever it was before, and nothing else changes. -/
def Obligations.RecalcWritesZeroedChecksum : Prop :=
  (∀ (p : Params) (l : Inputs), l.cmd = 0x00000004 → decode p l = .ok .recalcChecksum) ∧
  ∀ s : State,
    (s.pkt = none → ∃ t, exec .recalcChecksum s = .next t ∧ FailsWith 0x5 0 0 0 s t) ∧
    (∀ p : Packet, s.pkt = some p →
      ∃ t, exec .recalcChecksum s = .next t ∧
        t.peek .checksum =
          some ((chk s.params.digestIntOrder (ser { p with checksum := 0 })).setWidth 32) ∧
        t.peek .checksum = some ((chkZ s.params.digestIntOrder (ser p)).setWidth 32) ∧
        EndsOk t ∧ KeepsOthers (fun r => r = .checksum) s t)

/-- R113. RECALC_CHECKSUM is idempotent: a second one writes the same value back, and it leaves a packet whose
checksum is current as it was. -/
def Obligations.RecalcIsIdempotent : Prop :=
  ∀ (s t : State), exec .recalcChecksum s = .next t →
    (∀ u, exec .recalcChecksum t = .next u → u.pkt = t.pkt) ∧
    (∀ p, s.pkt = some p → p.checksum = chkZ s.params.digestIntOrder (ser p) → t.pkt = s.pkt)

/-! ### The field mutations (40_serializer.md section 5) -/

/-- R120, R121. SET_SRC_PORT is `CMD = 0x00000010` and SET_DST_PORT `CMD = 0x00000011`. Without a packet
they end with NO_PACKET. On a packet they complete: the port takes the operand, and nothing else changes,
the checksum included. -/
def Obligations.SetPortsWriteOneField : Prop :=
  (∀ (p : Params) (l : Inputs),
    (l.cmd = 0x00000010 → decode p l = .ok (.setSrcPort l.aSrc)) ∧
    (l.cmd = 0x00000011 → decode p l = .ok (.setDstPort l.aDst))) ∧
  ∀ (s : State) (v : Half),
    (s.pkt = none →
      (∃ t, exec (.setSrcPort v) s = .next t ∧ FailsWith 0x5 0 0 0 s t) ∧
      (∃ t, exec (.setDstPort v) s = .next t ∧ FailsWith 0x5 0 0 0 s t)) ∧
    (s.pkt ≠ none →
      (∃ t, exec (.setSrcPort v) s = .next t ∧ t.peek .srcPort = some (v.setWidth 32) ∧ EndsOk t ∧
        KeepsOthers (fun r => r = .srcPort) s t) ∧
      (∃ t, exec (.setDstPort v) s = .next t ∧ t.peek .dstPort = some (v.setWidth 32) ∧ EndsOk t ∧
        KeepsOthers (fun r => r = .dstPort) s t))

/-- R122, R123, R128. SET_SEQ is `CMD = 0x00000012`, SET_ACK_NUMBER `CMD = 0x00000013` and SET_WINDOW
`CMD = 0x00000018`. Without a packet they end with NO_PACKET. On a packet they complete: the 32-bit field
takes the operand, and nothing else changes, the flag `ack` and the checksum included. -/
def Obligations.SetNumbersWriteOneField : Prop :=
  (∀ (p : Params) (l : Inputs),
    (l.cmd = 0x00000012 → decode p l = .ok (.setSeq l.aSeq)) ∧
    (l.cmd = 0x00000013 → decode p l = .ok (.setAckNumber l.aAckn)) ∧
    (l.cmd = 0x00000018 → decode p l = .ok (.setWindow l.aWin))) ∧
  ∀ (s : State) (v : Word),
    (s.pkt = none →
      (∃ t, exec (.setSeq v) s = .next t ∧ FailsWith 0x5 0 0 0 s t) ∧
      (∃ t, exec (.setAckNumber v) s = .next t ∧ FailsWith 0x5 0 0 0 s t) ∧
      (∃ t, exec (.setWindow v) s = .next t ∧ FailsWith 0x5 0 0 0 s t)) ∧
    (s.pkt ≠ none →
      (∃ t, exec (.setSeq v) s = .next t ∧ t.peek .seqNumber = some v ∧ EndsOk t ∧
        KeepsOthers (fun r => r = .seqNumber) s t) ∧
      (∃ t, exec (.setAckNumber v) s = .next t ∧ t.peek .ackNumber = some v ∧ EndsOk t ∧
        KeepsOthers (fun r => r = .ackNumber) s t) ∧
      (∃ t, exec (.setWindow v) s = .next t ∧ t.peek .windowSize = some v ∧ EndsOk t ∧
        KeepsOthers (fun r => r = .windowSize) s t))

/-- R124 to R127. SET_FREQUENCY is `CMD = 0x00000014`, and the flag commands are `CMD = 0x00000015` to
`0x00000017`, each reading its own bit of `A_FLAGS`. Without a packet they end with NO_PACKET. On a packet
they complete: the frequency, or the one flag, takes the operand, and nothing else changes, the other flags
and the checksum included. -/
def Obligations.SetFrequencyAndFlagsWriteOneField : Prop :=
  (∀ (p : Params) (l : Inputs),
    (l.cmd = 0x00000014 → decode p l = .ok (.setFrequency l.aFreq)) ∧
    (l.cmd = 0x00000015 → decode p l = .ok (.setAckFlag (l.aFlags.getLsbD 2))) ∧
    (l.cmd = 0x00000016 → decode p l = .ok (.setSynFlag (l.aFlags.getLsbD 1))) ∧
    (l.cmd = 0x00000017 → decode p l = .ok (.setFinFlag (l.aFlags.getLsbD 0)))) ∧
  ∀ (s : State) (f : BitVec 5) (b : Bool),
    (s.pkt = none →
      (∃ t, exec (.setFrequency f) s = .next t ∧ FailsWith 0x5 0 0 0 s t) ∧
      (∃ t, exec (.setAckFlag b) s = .next t ∧ FailsWith 0x5 0 0 0 s t) ∧
      (∃ t, exec (.setSynFlag b) s = .next t ∧ FailsWith 0x5 0 0 0 s t) ∧
      (∃ t, exec (.setFinFlag b) s = .next t ∧ FailsWith 0x5 0 0 0 s t)) ∧
    (s.pkt ≠ none →
      (∃ t, exec (.setFrequency f) s = .next t ∧ t.peek .frequency = some (f.setWidth 32) ∧ EndsOk t ∧
        KeepsOthers (fun r => r = .frequency) s t) ∧
      (∃ t, exec (.setAckFlag b) s = .next t ∧ t.peek .ack = some (bitWord b) ∧ EndsOk t ∧
        KeepsOthers (fun r => r = .ack) s t) ∧
      (∃ t, exec (.setSynFlag b) s = .next t ∧ t.peek .syn = some (bitWord b) ∧ EndsOk t ∧
        KeepsOthers (fun r => r = .syn) s t) ∧
      (∃ t, exec (.setFinFlag b) s = .next t ∧ t.peek .fin = some (bitWord b) ∧ EndsOk t ∧
        KeepsOthers (fun r => r = .fin) s t))

/-- R129. SET_PAYLOAD is `CMD = 0x00000019`, illegal if `IN_LEN > MAX_IN_BYTES`. Without a packet it ends with
NO_PACKET, whatever the length; on a packet and with more than 1020 bytes it ends with PAYLOAD_TOO_LONG.
Otherwise it completes: the payload, its length and `data_offset` are those of R102, and nothing else
changes, the checksum included. -/
def Obligations.SetPayloadReplacesPayload : Prop :=
  (∀ (p : Params) (l : Inputs), l.cmd = 0x00000019 →
    (l.inLen.toNat ≤ p.maxInBytes → decode p l = .ok (.setPayload l.input)) ∧
    (p.maxInBytes < l.inLen.toNat → decode p l = .error .inputTooLong)) ∧
  ∀ (s : State) (payload : List Byte), (Instr.setPayload payload).WellFormed s.params →
    (s.pkt = none → ∃ t, exec (.setPayload payload) s = .next t ∧ FailsWith 0x5 0 0 0 s t) ∧
    (s.pkt ≠ none → 1020 < payload.length →
      ∃ t, exec (.setPayload payload) s = .next t ∧
        FailsWith 0x6 1020 (BitVec.ofNat 32 payload.length) 1020 s t) ∧
    (s.pkt ≠ none → payload.length ≤ 1020 →
      ∃ t q, exec (.setPayload payload) s = .next t ∧ t.pkt = some q ∧
        q.payload = storedPayload s.params.unalignedPayload payload ∧
        q.dataOffset.toNat = (payload.length + 3) / 4 ∧ EndsOk t ∧
        KeepsOthers (fun r => r = .payloadLen ∨ r = .dataOffset ∨ ∃ i, r = .payload i) s t)

/-- The pseudo-command SEAL: after any SET_* command that ends with OK, a RECALC_CHECKSUM makes the checksum
current again (R87, R112, R232). -/
def Obligations.SealMakesChecksumCurrent : Prop :=
  ∀ (i : Instr) (s t u : State), isSet i = true → exec i s = .next t → t.status = .ok →
    exec .recalcChecksum t = .next u →
    ∃ p, u.pkt = some p ∧ p.checksum = chkZ s.params.digestIntOrder (ser p)

/-! ### The checksum engine (41_checksum.md) -/

/-- R150. CALC_CHECKSUM is `CMD = 0x00000003`, illegal if `IN_LEN > MAX_IN_BYTES`. It completes in every state
and on every input `IN` can hold: `RES_CHK` is the checksum of the bytes as they are, with no zeroing,
`CHK_VALID` is 1, and nothing else changes. -/
def Obligations.CalcChecksumWritesResult : Prop :=
  (∀ (p : Params) (l : Inputs), l.cmd = 0x00000003 →
    (l.inLen.toNat ≤ p.maxInBytes → decode p l = .ok (.calcChecksum l.input)) ∧
    (p.maxInBytes < l.inLen.toNat → decode p l = .error .inputTooLong)) ∧
  ∀ (s : State) (input : List Byte), (Instr.calcChecksum input).WellFormed s.params →
    ∃ t, exec (.calcChecksum input) s = .next t ∧
      t.peek .resChk = some ((chk s.params.digestIntOrder input).setWidth 32) ∧
      t.peek .chkValid = some 1 ∧ EndsOk t ∧
      KeepsOthers (fun r => r = .resChk ∨ r = .chkValid) s t

/-- R144. The padded message: the message, 0x80, the least number of zero bytes that reaches 56 modulo 64, and
the bit length in eight bytes; its length is a multiple of 64. The message words of a block of 64 bytes are
its sixteen little-endian words. -/
def Obligations.PaddingFillsBlocks : Prop :=
  (∀ m : List Byte, ∃ k,
    pad m = m ++ [0x80] ++ zeros k ++ bytesLe64 (BitVec.ofNat 64 (8 * m.length)) ∧
      (m.length + 1 + k) % 64 = 56 ∧ (∀ j, (m.length + 1 + j) % 64 = 56 → k ≤ j) ∧
      (pad m).length % 64 = 0) ∧
  (∀ blk : List Byte, blk.length = 64 → (wordsOf blk).length = 16 ∧
    ∀ j, j < 16 → (wordsOf blk)[j]? =
      some (le32 (byteAt blk (4 * j)) (byteAt blk (4 * j + 1)) (byteAt blk (4 * j + 2))
        (byteAt blk (4 * j + 3))))

/-- R149. The digest is the four final chaining words in little-endian byte order; under BIG the checksum is
taken from the final `d0`, under LITTLE it is the low half of the final `a0`. -/
def Obligations.ChecksumFromChainingWords : Prop :=
  ∀ s : List Byte,
    md5 s = bytesLe32 (md5Chain s).a ++ bytesLe32 (md5Chain s).b ++ bytesLe32 (md5Chain s).c ++
      bytesLe32 (md5Chain s).d ∧
    chk .big s = (md5Chain s).d.extractLsb 23 16 ++ (md5Chain s).d.extractLsb 31 24 ∧
    chk .little s = (md5Chain s).a.extractLsb 15 0

/-- R141. The zeroed-field checksum is the checksum of the bytes with bytes 14 and 15 replaced by 0x00, and so
it does not depend on them. -/
def Obligations.ZeroedChecksumIgnoresField : Prop :=
  ∀ (o : DigestIntOrder) (s : List Byte), 16 ≤ s.length →
    chkZ o s = chk o (s.take 14 ++ [0x00, 0x00] ++ s.drop 16) ∧
    ∀ x y : Byte, chkZ o ((s.set 14 x).set 15 y) = chkZ o s

/-! ### The parser (42_parser.md) -/

/-- R173. PARSE of fewer than 20 bytes ends with TOO_SHORT, error context (20, IN_LEN, IN_LEN), and changes
nothing else. -/
def Obligations.ShortInputIsTooShort : Prop :=
  ∀ (s : State) (input : List Byte), input.length < 20 →
    ∃ t, exec (.parse input) s = .next t ∧
      FailsWith 0x2 20 (BitVec.ofNat 32 input.length) (BitVec.ofNat 32 input.length) s t

/-- R171, R201. PARSE of 20 bytes or more whose zeroed-copy checksum, over every byte, differs from bytes 14
to 15 ends with CHECKSUM_MISMATCH (computed, stored, 14), whatever `data_offset` says, and changes nothing
else. -/
def Obligations.WrongChecksumIsMismatch : Prop :=
  ∀ (s : State) (input : List Byte), (Instr.parse input).WellFormed s.params → 20 ≤ input.length →
    chkZ s.params.digestIntOrder input ≠ be16 (byteAt input 14) (byteAt input 15) →
    ∃ t, exec (.parse input) s = .next t ∧
      FailsWith 0x3 ((chkZ s.params.digestIntOrder input).setWidth 32)
        ((be16 (byteAt input 14) (byteAt input 15)).setWidth 32) 14 s t

/-- R172. PARSE of an input that passes the checksum and is shorter than `20 + 4 × data_offset` ends with
TRUNCATED_PAYLOAD (20 + 4 × data_offset, IN_LEN, IN_LEN) and changes nothing else. -/
def Obligations.ShortPayloadIsTruncated : Prop :=
  ∀ (s : State) (input : List Byte), (Instr.parse input).WellFormed s.params → 20 ≤ input.length →
    chkZ s.params.digestIntOrder input = be16 (byteAt input 14) (byteAt input 15) →
    input.length < 20 + 4 * (byteAt input 13).toNat →
    ∃ t, exec (.parse input) s = .next t ∧
      FailsWith 0x4 (BitVec.ofNat 32 (20 + 4 * (byteAt input 13).toNat))
        (BitVec.ofNat 32 input.length) (BitVec.ofNat 32 input.length) s t

/-- R76, R170. PARSE of an input that passes every check completes: every field of `PKT` is the big-endian
value at its offset, the payload is the `4 × data_offset` bytes from offset 20, the checksum is computed
anew over the packet's own serialization, and nothing else changes. -/
def Obligations.ParseLoadsPacket : Prop :=
  ∀ (s : State) (input : List Byte), (Instr.parse input).WellFormed s.params → 20 ≤ input.length →
    chkZ s.params.digestIntOrder input = be16 (byteAt input 14) (byteAt input 15) →
    20 + 4 * (byteAt input 13).toNat ≤ input.length →
    ∃ t p, exec (.parse input) s = .next t ∧ t.pkt = some p ∧
      p.srcPort.toNat = 256 * (byteAt input 0).toNat + (byteAt input 1).toNat ∧
      p.dstPort.toNat = 256 * (byteAt input 2).toNat + (byteAt input 3).toNat ∧
      p.seqNumber.toNat = 2 ^ 24 * (byteAt input 4).toNat + 2 ^ 16 * (byteAt input 5).toNat +
        256 * (byteAt input 6).toNat + (byteAt input 7).toNat ∧
      p.ackNumber.toNat = 2 ^ 24 * (byteAt input 8).toNat + 2 ^ 16 * (byteAt input 9).toNat +
        256 * (byteAt input 10).toNat + (byteAt input 11).toNat ∧
      p.frequency.toNat = (byteAt input 12).toNat / 8 ∧
      p.ack = (byteAt input 12).getLsbD 2 ∧ p.syn = (byteAt input 12).getLsbD 1 ∧
      p.fin = (byteAt input 12).getLsbD 0 ∧ p.dataOffset = byteAt input 13 ∧
      p.windowSize.toNat = 2 ^ 24 * (byteAt input 16).toNat + 2 ^ 16 * (byteAt input 17).toNat +
        256 * (byteAt input 18).toNat + (byteAt input 19).toNat ∧
      p.payload = (input.drop 20).take (4 * (byteAt input 13).toNat) ∧
      p.checksum = chk s.params.digestIntOrder (ser { p with checksum := 0 }) ∧
      EndsOk t ∧ KeepsOthers (fun r => r.inPacket = true) s t

/-- R174. The checksum PARSE loads is the zeroed-field checksum of the packet's own bytes,
`IN[0 .. 20 + 4d)`, and not of the whole input; the two agree when there are no trailing bytes. -/
def Obligations.ParsedChecksumCoversOwnBytes : Prop :=
  ∀ (s t : State) (input : List Byte), exec (.parse input) s = .next t → t.status = .ok →
    ∃ p, t.pkt = some p ∧
      p.checksum =
        chkZ s.params.digestIntOrder (input.take (20 + 4 * (byteAt input 13).toNat)) ∧
      (input.length = 20 + 4 * (byteAt input 13).toNat →
        p.checksum = be16 (byteAt input 14) (byteAt input 15))

/-- Trailing bytes are covered by the checksum check and otherwise ignored: two inputs that agree on the first
`20 + 4d` bytes and both end with OK load the same packet (R175). -/
def Obligations.ParseIgnoresTrailingBytes : Prop :=
  ∀ (s t t' : State) (packet trail trail' : List Byte), 20 ≤ packet.length →
    packet.length = 20 + 4 * (byteAt packet 13).toNat →
    exec (.parse (packet ++ trail)) s = .next t → t.status = .ok →
    exec (.parse (packet ++ trail')) s = .next t' → t'.status = .ok → t.pkt = t'.pkt

/-- R178. Round trip: a CONSTRUCT that ends with OK, a SERIALIZE, and a PARSE of `OUT[0..OUT_LEN)` leave every
field of `PKT` as after the CONSTRUCT, under PAD_ZERO for every payload and under LEGACY for a payload
length that is a multiple of 4. -/
def Obligations.ConstructSerializeParseRoundTrip : Prop :=
  ∀ (src dst : Half) (payload : List Byte) (seq ackn : Word) (freq : BitVec 5) (ack syn fin : Bool)
    (win : Word) (s a b : State),
    exec (.construct src dst payload seq ackn freq ack syn fin win) s = .next a → a.status = .ok →
    exec .serialize a = .next b →
    (s.params.unalignedPayload = .padZero ∨ payload.length % 4 = 0) →
    ∃ c, exec (.parse b.out) b = .next c ∧ c.status = .ok ∧ c.pkt = a.pkt

/-- R182. Under LEGACY, a packet built with a payload whose length is no multiple of 4 serializes to bytes that
PARSE ends on with TRUNCATED_PAYLOAD, ERR_EXPECTED = 20 + 4 × ceil(n/4) and ERR_ACTUAL = 20 + n. -/
def Obligations.LegacyUnalignedOutputIsTruncated : Prop :=
  ∀ (src dst : Half) (payload : List Byte) (seq ackn : Word) (freq : BitVec 5) (ack syn fin : Bool)
    (win : Word) (s a b : State),
    exec (.construct src dst payload seq ackn freq ack syn fin win) s = .next a → a.status = .ok →
    exec .serialize a = .next b → s.params.unalignedPayload = .legacy → payload.length % 4 ≠ 0 →
    b.out.length = 20 + payload.length ∧
    ∃ c, exec (.parse b.out) b = .next c ∧ c.peek .status = some 0x4 ∧
      c.peek .errExpected = some (BitVec.ofNat 32 (20 + 4 * ((payload.length + 3) / 4))) ∧
      c.peek .errActual = some (BitVec.ofNat 32 (20 + payload.length))

/-- R180, R181. IS_TERMINATOR is `CMD = 0x00000006`. Without a packet it ends with NO_PACKET. On a packet it
completes: `RES_TERM` is 1 exactly when the three flags are 0 and the payload is empty, and 0 otherwise,
`TERM_VALID` is 1, and nothing else changes. -/
def Obligations.TerminatorIsBareEmptyPacket : Prop :=
  (∀ (p : Params) (l : Inputs), l.cmd = 0x00000006 → decode p l = .ok .isTerminator) ∧
  ∀ s : State,
    (s.pkt = none → ∃ t, exec .isTerminator s = .next t ∧ FailsWith 0x5 0 0 0 s t) ∧
    (∀ p : Packet, s.pkt = some p →
      ∃ t, exec .isTerminator s = .next t ∧
        ((p.ack = false ∧ p.syn = false ∧ p.fin = false ∧ p.payload.length = 0) →
          t.peek .resTerm = some 1) ∧
        (¬ (p.ack = false ∧ p.syn = false ∧ p.fin = false ∧ p.payload.length = 0) →
          t.peek .resTerm = some 0) ∧
        t.peek .termValid = some 1 ∧ EndsOk t ∧
        KeepsOthers (fun r => r = .resTerm ∨ r = .termValid) s t)

/-! ### Rules about every command (10_state.md, 60_exceptions.md) -/

/-- R29. Every command completes in every state and writes the three error registers: 0 when it ends with OK;
`BUSY` is 0 after it, and `STATUS` is never NONE (R200, R202). -/
def Obligations.EveryCommandCompletes : Prop :=
  ∀ (i : Instr) (s : State), ∃ t, exec i s = .next t ∧ t.peek .busy = some 0 ∧ t.status ≠ .none ∧
    (t.status = .ok → t.errExpected = 0 ∧ t.errActual = 0 ∧ t.errOffset = 0)

/-- R203. `raise` writes `STATUS` and the error registers with the given values, sets `BUSY` to 0 and changes
nothing else; and a failure is exact: after a command that does not end with OK, every register but `STATUS`
and the error registers is as before it, and `BUSY` is 0. -/
def Obligations.FailureIsExact : Prop :=
  (∀ (st : Status) (expected actual : Word) (offset : Half) (s : State),
    FailsWith (st.code.setWidth 32) expected actual (offset.setWidth 32) s
      (s.raise st expected actual offset)) ∧
  ∀ (i : Instr) (s t : State), exec i s = .next t → t.status ≠ .ok →
    t.peek .busy = some 0 ∧ KeepsOthers (fun _ => False) s t

/-- The causes of R204, by command: which status codes each command can end with, and on what cause. -/
def Obligations.CommandsRaiseOnlyTheirCauses : Prop :=
  ∀ (i : Instr) (s t : State), exec i s = .next t →
    (t.status = .noPacket → needsPkt i = true ∧ s.pkt = none) ∧
    (t.status = .payloadTooLong →
      (i.opcode = .construct ∨ i.opcode = .setPayload) ∧ 1020 < i.inputLength) ∧
    (t.status = .tooShort → i.opcode = .parse ∧ i.inputLength < 20) ∧
    (t.status = .checksumMismatch →
      i.opcode = .parse ∧ 20 ≤ i.inputLength ∧
        chkZ s.params.digestIntOrder (inputOf i) ≠ be16 (byteAt (inputOf i) 14) (byteAt (inputOf i) 15)) ∧
    (t.status = .truncatedPayload →
      i.opcode = .parse ∧ 20 ≤ i.inputLength ∧
        chkZ s.params.digestIntOrder (inputOf i) = be16 (byteAt (inputOf i) 14) (byteAt (inputOf i) 15) ∧
        i.inputLength < 20 + 4 * (byteAt (inputOf i) 13).toNat) ∧
    t.status ≠ .illegalCommand

/-- Only SERIALIZE writes `OUT`, only CALC_CHECKSUM writes `RES_CHK`, only IS_TERMINATOR writes `RES_TERM`,
each only when it ends with OK, and those three never write `PKT` (R26, R30, R31, R32). -/
def Obligations.ResultsHaveOneWriter : Prop :=
  ∀ (i : Instr) (s t : State), exec i s = .next t →
    (t.out ≠ s.out ∨ t.outValid ≠ s.outValid → i = .serialize ∧ t.status = .ok) ∧
    (t.resChk ≠ s.resChk → i.opcode = .calcChecksum ∧ t.status = .ok) ∧
    (t.resTerm ≠ s.resTerm → i = .isTerminator ∧ t.status = .ok) ∧
    (t.pkt ≠ s.pkt → i ≠ .serialize ∧ i ≠ .isTerminator ∧ i.opcode ≠ .calcChecksum ∧ t.status = .ok)

/-- R26. Which commands write `PKT`: a command that does not end with OK writes none of it; without a packet
only CONSTRUCT and PARSE give one; and on a packet each field changes by its own command, CONSTRUCT or PARSE
only, the checksum by RECALC_CHECKSUM and `data_offset` with the payload. -/
def Obligations.PacketFieldsHaveTheirWriters : Prop :=
  ∀ (i : Instr) (s t : State), exec i s = .next t →
    (t.status ≠ .ok → t.pkt = s.pkt) ∧
    ((i.opcode = .construct ∨ i.opcode = .parse) → t.status = .ok → t.pkt ≠ none) ∧
    (i.opcode ≠ .construct → i.opcode ≠ .parse →
      (s.pkt = none → t.pkt = none) ∧
      (∀ p, s.pkt = some p → ∃ q, t.pkt = some q ∧
        (q.srcPort ≠ p.srcPort → i.opcode = .setSrcPort) ∧
        (q.dstPort ≠ p.dstPort → i.opcode = .setDstPort) ∧
        (q.seqNumber ≠ p.seqNumber → i.opcode = .setSeq) ∧
        (q.ackNumber ≠ p.ackNumber → i.opcode = .setAckNumber) ∧
        (q.frequency ≠ p.frequency → i.opcode = .setFrequency) ∧
        (q.ack ≠ p.ack → i.opcode = .setAckFlag) ∧ (q.syn ≠ p.syn → i.opcode = .setSynFlag) ∧
        (q.fin ≠ p.fin → i.opcode = .setFinFlag) ∧
        (q.windowSize ≠ p.windowSize → i.opcode = .setWindow) ∧
        (q.payload ≠ p.payload → i.opcode = .setPayload) ∧
        (q.dataOffset ≠ p.dataOffset → i.opcode = .setPayload) ∧
        (q.checksum ≠ p.checksum → i.opcode = .recalcChecksum)))

/-- Every command leaves the parameters, the input lines and the host's side as they are: the block reads its
inputs and never writes them (R35, R50, R231). -/
def Obligations.CommandsKeepHostSide : Prop :=
  ∀ (i : Instr) (s t : State), exec i s = .next t → KeepsHostSide s t

/-- Every command's result depends only on its operands and on `PKT` (and the parameters): from two states
that agree on those, it ends with the same status and error registers, the same `PKT`, and the same output
and result registers wherever it changes them (R58). -/
def Obligations.ResultsDependOnOperandsAndPacket : Prop :=
  ∀ (i : Instr) (s s' t t' : State), s.params = s'.params → s.pkt = s'.pkt →
    exec i s = .next t → exec i s' = .next t' →
    t.status = t'.status ∧ t.errExpected = t'.errExpected ∧ t.errActual = t'.errActual ∧
      t.errOffset = t'.errOffset ∧ t.pkt = t'.pkt ∧
      (i = .serialize → t.status = .ok → t.out = t'.out ∧ t.outValid = t'.outValid) ∧
      (i.opcode = .calcChecksum → t.resChk = t'.resChk) ∧
      (i = .isTerminator → t.status = .ok → t.resTerm = t'.resTerm)

/-! ### Invariants that every step keeps -/

/-- R23. `PKT.data_offset = ceil(PKT.payload_len / 4)` whenever there is a packet: every step keeps it, but for
the one that completes a command whose inputs the host changed while `BUSY = 1`, whose outcome is unspecified
(R233). A read, a change of the inputs, a presented command or reset while such a command is in progress keeps
it. -/
def Obligations.StepsKeepDerivedOffset : Prop :=
  ∀ s t : State, ¬ s.CompletesRace → s.OffsetDerived → step s = .next t → t.OffsetDerived

/-- R24. Under PAD_ZERO, `PKT.payload_len = 4 × PKT.data_offset` whenever there is a packet: every step keeps
it, but for the step that completes a raced command (R233). -/
def Obligations.StepsKeepPaddedPayload : Prop :=
  ∀ s t : State, ¬ s.CompletesRace → s.PaddedPayload → step s = .next t → t.PaddedPayload

/-- The stores stay within their capacity, the payload within 1020 bytes, `OUT` within 1040 and `IN` within
`MAX_IN_BYTES`: every step keeps it, races, reset and the host's own actions included (R22, R30, R50). -/
def Obligations.StepsKeepCapacity : Prop :=
  ∀ s t : State, s.WithinCapacity → step s = .next t → t.WithinCapacity

/-- The state after reset meets the three invariants and has no raced command. -/
def Obligations.ResetMeetsInvariants : Prop :=
  State.reset.OffsetDerived ∧ State.reset.PaddedPayload ∧ State.reset.WithinCapacity ∧
    State.reset.StableInputs ∧ State.reset.params.Legal
end

