-- ==== Sys2Proof/Laws/Bytes.lean ====
section
/-! SUPPORT. Byte order and padding as arithmetic: concatenation and bit fields of words as numbers, and
what the small byte operations answer. -/

namespace Sys2Proof.Machine

/-- Concatenation as arithmetic (00_scope.md R7). -/
theorem toNat_append_add {m n : Nat} (x : BitVec m) (y : BitVec n) :
    (x ++ y).toNat = x.toNat * 2 ^ n + y.toNat := by
  rw [BitVec.toNat_append, ← Nat.shiftLeft_add_eq_or_of_lt y.isLt, Nat.shiftLeft_eq]

/-- A bit field as arithmetic (R7). -/
theorem toNat_field {w : Nat} (x : BitVec w) (hi lo : Nat) :
    (x.extractLsb hi lo).toNat = x.toNat / 2 ^ lo % 2 ^ (hi - lo + 1) := by
  simp [BitVec.extractLsb_toNat, Nat.shiftRight_eq_div_pow]

/-- `be32` of the four bytes of a word is the word. -/
theorem be32_fields (v : Word) :
    be32 (v.extractLsb 31 24) (v.extractLsb 23 16) (v.extractLsb 15 8) (v.extractLsb 7 0) = v := by
  apply BitVec.eq_of_toNat_eq
  simp only [be32, toNat_append_add, toNat_field]
  have := v.isLt
  omega

/-- The four bytes of `be32` are its arguments, in order. -/
theorem bytesBe32_be32 (w x y z : Byte) : bytesBe32 (be32 w x y z) = [w, x, y, z] := by
  have hw := w.isLt
  have hx := x.isLt
  have hy := y.isLt
  have hz := z.isLt
  simp only [bytesBe32, List.cons.injEq, and_true]
  refine ⟨?_, ?_, ?_, ?_⟩ <;> apply BitVec.eq_of_toNat_eq <;>
    simp only [be32, toNat_append_add, toNat_field] <;> omega

@[simp] theorem bytesBe32_length (v : Word) : (bytesBe32 v).length = 4 := rfl
@[simp] theorem bytesLe32_length (v : Word) : (bytesLe32 v).length = 4 := rfl
@[simp] theorem bytesLe64_length (v : BitVec 64) : (bytesLe64 v).length = 8 := rfl
@[simp] theorem zeros_length (k : Nat) : (zeros k).length = k := by simp [zeros]
@[simp] theorem zeroedCopy_length (s : List Byte) : (zeroedCopy s).length = s.length := by
  simp [zeroedCopy]

/-- Where the offset is in range, `byteAt` is the element there. -/
theorem byteAt_of_lt {s : List Byte} {i : Nat} (h : i < s.length) : byteAt s i = s[i] := by
  simp [byteAt, List.getD_eq_getElem?_getD, h]

/-- The length of the stored payload: padded to a multiple of 4, or as given (40_serializer.md R102). -/
theorem storedPayload_length (u : UnalignedPayload) (p : List Byte) :
    (storedPayload u p).length =
      match u with
      | .padZero => 4 * wordsCeil p.length
      | .legacy => p.length := by
  cases u with
  | padZero => simp only [storedPayload, List.length_append, zeros_length, wordsCeil]; omega
  | legacy => rfl

/-- A payload whose length is a multiple of 4 is stored as it is, under both settings (R102). -/
theorem storedPayload_aligned (u : UnalignedPayload) {p : List Byte} (h : p.length % 4 = 0) :
    storedPayload u p = p := by
  cases u <;> simp [storedPayload, h, zeros]

/-- The stored payload fits the payload storage if the operand does (R102). -/
theorem storedPayload_fits (u : UnalignedPayload) {p : List Byte} (h : p.length ≤ 1020) :
    (storedPayload u p).length ≤ 1020 := by
  rw [storedPayload_length]
  cases u <;> simp only [wordsCeil] <;> omega

/-- The fields of byte 12 as arithmetic (30_encoding.md R72). -/
theorem flagByte_toNat (f : BitVec 5) (a s n : Bool) :
    (flagByte f a s n).toNat = 8 * f.toNat + 4 * a.toNat + 2 * s.toNat + n.toNat := by
  simp only [flagByte, toNat_append_add, BitVec.toNat_ofBool]
  omega

end Sys2Proof.Machine
end

