-- ==== Sys2Proof/Laws/Decode.lean ====
section
/-! SUPPORT. What the decoder answers, case by case, and the lengths of the input (30_encoding.md R84). -/

namespace Sys2Proof

/-- `IN[0..n)` has `n` bytes (20_memory.md R50). -/
@[simp] theorem Machine.Inputs.bytes_length (l : Machine.Inputs) (n : Nat) :
    (l.bytes n).length = n := by
  simp only [Machine.Inputs.bytes, List.length_append, List.length_take, List.length_map,
    List.length_range']
  omega

/-- What the host wrote is what the block reads (R50). -/
theorem Machine.Inputs.bytes_of_written (l : Machine.Inputs) {n : Nat} (h : n ≤ l.inBuf.length) :
    l.bytes n = l.inBuf.take n := by
  simp [Machine.Inputs.bytes, Nat.sub_eq_zero_of_le h]

/-- Each command's opcode selects the command (R82). -/
theorem Opcode.lookup_toByte (op : Opcode) : Opcode.lookup op.toByte.toNat = some op := by
  cases op <;> rfl

/-- Only the sixteen values of R82 select a command, each its own. -/
theorem Opcode.lookup_some {n : Nat} {op : Opcode} (h : Opcode.lookup n = some op) :
    n = op.toByte.toNat := by
  unfold Opcode.lookup at h
  split at h <;> first | cases h; rfl | cases h

/-- A zero-extended opcode has its reserved bits 0 and its `OPC` is the opcode (R81). -/
theorem Opcode.word_fields (op : Opcode) :
    (op.toByte.setWidth 32).extractLsb 31 8 = 0 ∧
      (op.toByte.setWidth 32).extractLsb 7 0 = op.toByte := by
  cases op <;> decide

/-- The word a command assembles to has its reserved bits 0, and its `OPC` selects the command (R86). -/
theorem encode_cmd_fields (i : Instr) :
    (encode i).cmd.extractLsb 31 8 = 0 ∧
      Opcode.lookup ((encode i).cmd.extractLsb 7 0).toNat = some i.opcode := by
  have h := i.opcode.word_fields
  refine ⟨h.1, ?_⟩
  have h2 : (encode i).cmd.extractLsb 7 0 = i.opcode.toByte := h.2
  rw [h2, Opcode.lookup_toByte]

/-- A command whose reserved bits are 0 is named by its opcode alone (R81, R82). -/
theorem Opcode.ofWord_of_lookup {cmd : Word} (h : cmd.extractLsb 31 8 = 0) :
    Opcode.ofWord cmd = Opcode.lookup (cmd.extractLsb 7 0).toNat := by
  simp [Opcode.ofWord, h]

/-- A word with a set reserved bit names no command (R84 case 1). -/
theorem Opcode.ofWord_reserved {cmd : Word} (h : cmd.extractLsb 31 8 ≠ 0) : Opcode.ofWord cmd = none := by
  simp only [Opcode.ofWord, if_pos h]

/-- The word each command assembles to names it (R82, R86). -/
theorem Opcode.ofWord_toByte (op : Opcode) : Opcode.ofWord (op.toByte.setWidth 32) = some op := by
  rw [Opcode.ofWord_of_lookup op.word_fields.1, op.word_fields.2, Opcode.lookup_toByte]

/-- A set reserved bit is rejected (R84 case 1). -/
theorem decode_reserved {p : Params} {l : Machine.Inputs} (h : l.cmd.extractLsb 31 8 ≠ 0) :
    decode p l = .error .reservedBits := by
  unfold decode
  rw [if_pos h]

/-- An unassigned opcode is rejected (R84 case 2). -/
theorem decode_unassigned {p : Params} {l : Machine.Inputs} (h0 : l.cmd.extractLsb 31 8 = 0)
    (h : Opcode.lookup (l.cmd.extractLsb 7 0).toNat = none) :
    decode p l = .error .unassignedOpcode := by
  unfold decode
  rw [if_neg (not_not.mpr h0), h]

/-- An input longer than `IN` is rejected (R84 case 3). -/
theorem decode_tooLong {p : Params} {l : Machine.Inputs} {op : Opcode}
    (h0 : l.cmd.extractLsb 31 8 = 0)
    (h : Opcode.lookup (l.cmd.extractLsb 7 0).toNat = some op)
    (hr : op.readsIn ∧ p.maxInBytes < l.inLen.toNat) : decode p l = .error .inputTooLong := by
  unfold decode
  rw [if_neg (not_not.mpr h0), h]
  exact if_pos hr

/-- Every other setting of the lines is a command with its operands (R84). -/
theorem decode_ok {p : Params} {l : Machine.Inputs} {op : Opcode}
    (h0 : l.cmd.extractLsb 31 8 = 0)
    (h : Opcode.lookup (l.cmd.extractLsb 7 0).toNat = some op)
    (hr : ¬ (op.readsIn ∧ p.maxInBytes < l.inLen.toNat)) :
    decode p l = .ok (op.operands l) := by
  unfold decode
  rw [if_neg (not_not.mpr h0), h]
  exact if_neg hr

/-- A decoded command comes from one opcode and its operands. -/
theorem decode_ok_inv {p : Params} {l : Machine.Inputs} {i : Instr} (h : decode p l = .ok i) :
    ∃ op : Opcode, l.cmd.extractLsb 31 8 = 0 ∧ (l.cmd.extractLsb 7 0) = op.toByte ∧
      ¬ (op.readsIn ∧ p.maxInBytes < l.inLen.toNat) ∧ i = op.operands l := by
  unfold decode at h
  split at h
  · cases h
  · rename_i h0
    split at h
    · cases h
    · rename_i op hop
      split at h
      · cases h
      · rename_i hr
        refine ⟨op, not_not.mp h0, ?_, hr, (Except.ok.inj h).symm⟩
        exact BitVec.eq_of_toNat_eq (Opcode.lookup_some hop)

/-- A decoded command is the one its word names (R82). -/
theorem ofWord_of_decode {p : Params} {l : Machine.Inputs} {i : Instr} (h : decode p l = .ok i) :
    Opcode.ofWord l.cmd = some i.opcode := by
  obtain ⟨op, h0, h1, -, rfl⟩ := decode_ok_inv h
  rw [Opcode.ofWord_of_lookup h0, h1, Opcode.lookup_toByte]
  cases op <;> rfl

/-- The bits of `A_FLAGS` (R80). -/
theorem flagLines_bits (a s n : Bool) :
    (flagLines a s n).getLsbD 2 = a ∧ (flagLines a s n).getLsbD 1 = s ∧
      (flagLines a s n).getLsbD 0 = n := by
  revert a s n
  decide

end Sys2Proof
end

