-- ==== Sys2Proof/Laws/State.lean ====
section
/-! SUPPORT. What each named update of the state leaves in each field: one lemma per field per update, all
true by unfolding, so that no later proof unfolds a record update. -/

namespace Sys2Proof.Machine

@[simp] theorem State.complete_params (s : State) : s.complete.params = s.params := rfl
@[simp] theorem State.complete_pkt (s : State) : s.complete.pkt = s.pkt := rfl
@[simp] theorem State.complete_status (s : State) : s.complete.status = .ok := rfl
@[simp] theorem State.complete_errExpected (s : State) : s.complete.errExpected = 0 := rfl
@[simp] theorem State.complete_errActual (s : State) : s.complete.errActual = 0 := rfl
@[simp] theorem State.complete_errOffset (s : State) : s.complete.errOffset = 0 := rfl
@[simp] theorem State.complete_out (s : State) : s.complete.out = s.out := rfl
@[simp] theorem State.complete_outValid (s : State) : s.complete.outValid = s.outValid := rfl
@[simp] theorem State.complete_resChk (s : State) : s.complete.resChk = s.resChk := rfl
@[simp] theorem State.complete_resTerm (s : State) : s.complete.resTerm = s.resTerm := rfl
@[simp] theorem State.complete_inProgress (s : State) : s.complete.inProgress = none := rfl
@[simp] theorem State.complete_lines (s : State) : s.complete.lines = s.lines := rfl
@[simp] theorem State.complete_events (s : State) : s.complete.events = s.events := rfl
@[simp] theorem State.complete_draws (s : State) : s.complete.draws = s.draws := rfl
@[simp] theorem State.complete_readout (s : State) : s.complete.readout = s.readout := rfl

@[simp] theorem State.raise_params (st : Status) (e a : Word) (o : Half) (s : State) :
    (s.raise st e a o).params = s.params :=
  rfl
@[simp] theorem State.raise_pkt (st : Status) (e a : Word) (o : Half) (s : State) :
    (s.raise st e a o).pkt = s.pkt :=
  rfl
@[simp] theorem State.raise_status (st : Status) (e a : Word) (o : Half) (s : State) :
    (s.raise st e a o).status = st :=
  rfl
@[simp] theorem State.raise_errExpected (st : Status) (e a : Word) (o : Half) (s : State) :
    (s.raise st e a o).errExpected = e :=
  rfl
@[simp] theorem State.raise_errActual (st : Status) (e a : Word) (o : Half) (s : State) :
    (s.raise st e a o).errActual = a :=
  rfl
@[simp] theorem State.raise_errOffset (st : Status) (e a : Word) (o : Half) (s : State) :
    (s.raise st e a o).errOffset = o :=
  rfl
@[simp] theorem State.raise_out (st : Status) (e a : Word) (o : Half) (s : State) :
    (s.raise st e a o).out = s.out :=
  rfl
@[simp] theorem State.raise_outValid (st : Status) (e a : Word) (o : Half) (s : State) :
    (s.raise st e a o).outValid = s.outValid :=
  rfl
@[simp] theorem State.raise_resChk (st : Status) (e a : Word) (o : Half) (s : State) :
    (s.raise st e a o).resChk = s.resChk :=
  rfl
@[simp] theorem State.raise_resTerm (st : Status) (e a : Word) (o : Half) (s : State) :
    (s.raise st e a o).resTerm = s.resTerm :=
  rfl
@[simp] theorem State.raise_inProgress (st : Status) (e a : Word) (o : Half) (s : State) :
    (s.raise st e a o).inProgress = none :=
  rfl
@[simp] theorem State.raise_lines (st : Status) (e a : Word) (o : Half) (s : State) :
    (s.raise st e a o).lines = s.lines :=
  rfl
@[simp] theorem State.raise_events (st : Status) (e a : Word) (o : Half) (s : State) :
    (s.raise st e a o).events = s.events :=
  rfl
@[simp] theorem State.raise_draws (st : Status) (e a : Word) (o : Half) (s : State) :
    (s.raise st e a o).draws = s.draws :=
  rfl
@[simp] theorem State.raise_readout (st : Status) (e a : Word) (o : Half) (s : State) :
    (s.raise st e a o).readout = s.readout :=
  rfl

@[simp] theorem State.loadPacket_params (p : Packet) (s : State) :
    (s.loadPacket p).params = s.params :=
  rfl
@[simp] theorem State.loadPacket_pkt (p : Packet) (s : State) : (s.loadPacket p).pkt = some p := rfl
@[simp] theorem State.loadPacket_status (p : Packet) (s : State) :
    (s.loadPacket p).status = s.status :=
  rfl
@[simp] theorem State.loadPacket_errExpected (p : Packet) (s : State) :
    (s.loadPacket p).errExpected = s.errExpected :=
  rfl
@[simp] theorem State.loadPacket_errActual (p : Packet) (s : State) :
    (s.loadPacket p).errActual = s.errActual :=
  rfl
@[simp] theorem State.loadPacket_errOffset (p : Packet) (s : State) :
    (s.loadPacket p).errOffset = s.errOffset :=
  rfl
@[simp] theorem State.loadPacket_out (p : Packet) (s : State) : (s.loadPacket p).out = s.out := rfl
@[simp] theorem State.loadPacket_outValid (p : Packet) (s : State) :
    (s.loadPacket p).outValid = s.outValid :=
  rfl
@[simp] theorem State.loadPacket_resChk (p : Packet) (s : State) :
    (s.loadPacket p).resChk = s.resChk :=
  rfl
@[simp] theorem State.loadPacket_resTerm (p : Packet) (s : State) :
    (s.loadPacket p).resTerm = s.resTerm :=
  rfl
@[simp] theorem State.loadPacket_inProgress (p : Packet) (s : State) :
    (s.loadPacket p).inProgress = s.inProgress :=
  rfl
@[simp] theorem State.loadPacket_lines (p : Packet) (s : State) :
    (s.loadPacket p).lines = s.lines :=
  rfl
@[simp] theorem State.loadPacket_events (p : Packet) (s : State) :
    (s.loadPacket p).events = s.events :=
  rfl
@[simp] theorem State.loadPacket_draws (p : Packet) (s : State) :
    (s.loadPacket p).draws = s.draws :=
  rfl
@[simp] theorem State.loadPacket_readout (p : Packet) (s : State) :
    (s.loadPacket p).readout = s.readout :=
  rfl

@[simp] theorem State.loadOut_params (b : List Byte) (s : State) :
    (s.loadOut b).params = s.params :=
  rfl
@[simp] theorem State.loadOut_pkt (b : List Byte) (s : State) : (s.loadOut b).pkt = s.pkt := rfl
@[simp] theorem State.loadOut_status (b : List Byte) (s : State) :
    (s.loadOut b).status = s.status :=
  rfl
@[simp] theorem State.loadOut_errExpected (b : List Byte) (s : State) :
    (s.loadOut b).errExpected = s.errExpected :=
  rfl
@[simp] theorem State.loadOut_errActual (b : List Byte) (s : State) :
    (s.loadOut b).errActual = s.errActual :=
  rfl
@[simp] theorem State.loadOut_errOffset (b : List Byte) (s : State) :
    (s.loadOut b).errOffset = s.errOffset :=
  rfl
@[simp] theorem State.loadOut_out (b : List Byte) (s : State) : (s.loadOut b).out = b := rfl
@[simp] theorem State.loadOut_outValid (b : List Byte) (s : State) :
    (s.loadOut b).outValid = true :=
  rfl
@[simp] theorem State.loadOut_resChk (b : List Byte) (s : State) :
    (s.loadOut b).resChk = s.resChk :=
  rfl
@[simp] theorem State.loadOut_resTerm (b : List Byte) (s : State) :
    (s.loadOut b).resTerm = s.resTerm :=
  rfl
@[simp] theorem State.loadOut_inProgress (b : List Byte) (s : State) :
    (s.loadOut b).inProgress = s.inProgress :=
  rfl
@[simp] theorem State.loadOut_lines (b : List Byte) (s : State) :
    (s.loadOut b).lines = s.lines :=
  rfl
@[simp] theorem State.loadOut_events (b : List Byte) (s : State) :
    (s.loadOut b).events = s.events :=
  rfl
@[simp] theorem State.loadOut_draws (b : List Byte) (s : State) :
    (s.loadOut b).draws = s.draws :=
  rfl
@[simp] theorem State.loadOut_readout (b : List Byte) (s : State) :
    (s.loadOut b).readout = s.readout :=
  rfl

@[simp] theorem State.loadChk_params (c : Half) (s : State) : (s.loadChk c).params = s.params := rfl
@[simp] theorem State.loadChk_pkt (c : Half) (s : State) : (s.loadChk c).pkt = s.pkt := rfl
@[simp] theorem State.loadChk_status (c : Half) (s : State) : (s.loadChk c).status = s.status := rfl
@[simp] theorem State.loadChk_errExpected (c : Half) (s : State) :
    (s.loadChk c).errExpected = s.errExpected :=
  rfl
@[simp] theorem State.loadChk_errActual (c : Half) (s : State) :
    (s.loadChk c).errActual = s.errActual :=
  rfl
@[simp] theorem State.loadChk_errOffset (c : Half) (s : State) :
    (s.loadChk c).errOffset = s.errOffset :=
  rfl
@[simp] theorem State.loadChk_out (c : Half) (s : State) : (s.loadChk c).out = s.out := rfl
@[simp] theorem State.loadChk_outValid (c : Half) (s : State) :
    (s.loadChk c).outValid = s.outValid :=
  rfl
@[simp] theorem State.loadChk_resChk (c : Half) (s : State) : (s.loadChk c).resChk = some c := rfl
@[simp] theorem State.loadChk_resTerm (c : Half) (s : State) :
    (s.loadChk c).resTerm = s.resTerm :=
  rfl
@[simp] theorem State.loadChk_inProgress (c : Half) (s : State) :
    (s.loadChk c).inProgress = s.inProgress :=
  rfl
@[simp] theorem State.loadChk_lines (c : Half) (s : State) : (s.loadChk c).lines = s.lines := rfl
@[simp] theorem State.loadChk_events (c : Half) (s : State) : (s.loadChk c).events = s.events := rfl
@[simp] theorem State.loadChk_draws (c : Half) (s : State) : (s.loadChk c).draws = s.draws := rfl
@[simp] theorem State.loadChk_readout (c : Half) (s : State) :
    (s.loadChk c).readout = s.readout :=
  rfl

@[simp] theorem State.loadTerm_params (b : Bool) (s : State) :
    (s.loadTerm b).params = s.params :=
  rfl
@[simp] theorem State.loadTerm_pkt (b : Bool) (s : State) : (s.loadTerm b).pkt = s.pkt := rfl
@[simp] theorem State.loadTerm_status (b : Bool) (s : State) :
    (s.loadTerm b).status = s.status :=
  rfl
@[simp] theorem State.loadTerm_errExpected (b : Bool) (s : State) :
    (s.loadTerm b).errExpected = s.errExpected :=
  rfl
@[simp] theorem State.loadTerm_errActual (b : Bool) (s : State) :
    (s.loadTerm b).errActual = s.errActual :=
  rfl
@[simp] theorem State.loadTerm_errOffset (b : Bool) (s : State) :
    (s.loadTerm b).errOffset = s.errOffset :=
  rfl
@[simp] theorem State.loadTerm_out (b : Bool) (s : State) : (s.loadTerm b).out = s.out := rfl
@[simp] theorem State.loadTerm_outValid (b : Bool) (s : State) :
    (s.loadTerm b).outValid = s.outValid :=
  rfl
@[simp] theorem State.loadTerm_resChk (b : Bool) (s : State) :
    (s.loadTerm b).resChk = s.resChk :=
  rfl
@[simp] theorem State.loadTerm_resTerm (b : Bool) (s : State) :
    (s.loadTerm b).resTerm = some b :=
  rfl
@[simp] theorem State.loadTerm_inProgress (b : Bool) (s : State) :
    (s.loadTerm b).inProgress = s.inProgress :=
  rfl
@[simp] theorem State.loadTerm_lines (b : Bool) (s : State) : (s.loadTerm b).lines = s.lines := rfl
@[simp] theorem State.loadTerm_events (b : Bool) (s : State) :
    (s.loadTerm b).events = s.events :=
  rfl
@[simp] theorem State.loadTerm_draws (b : Bool) (s : State) : (s.loadTerm b).draws = s.draws := rfl
@[simp] theorem State.loadTerm_readout (b : Bool) (s : State) :
    (s.loadTerm b).readout = s.readout :=
  rfl

@[simp] theorem State.accept_params (s : State) : s.accept.params = s.params := rfl
@[simp] theorem State.accept_pkt (s : State) : s.accept.pkt = s.pkt := rfl
@[simp] theorem State.accept_status (s : State) : s.accept.status = s.status := rfl
@[simp] theorem State.accept_errExpected (s : State) : s.accept.errExpected = s.errExpected := rfl
@[simp] theorem State.accept_errActual (s : State) : s.accept.errActual = s.errActual := rfl
@[simp] theorem State.accept_errOffset (s : State) : s.accept.errOffset = s.errOffset := rfl
@[simp] theorem State.accept_out (s : State) : s.accept.out = s.out := rfl
@[simp] theorem State.accept_outValid (s : State) : s.accept.outValid = s.outValid := rfl
@[simp] theorem State.accept_resChk (s : State) : s.accept.resChk = s.resChk := rfl
@[simp] theorem State.accept_resTerm (s : State) : s.accept.resTerm = s.resTerm := rfl
@[simp] theorem State.accept_inProgress (s : State) :
    s.accept.inProgress = some { inputs := s.lines, raced := false } :=
  rfl
@[simp] theorem State.accept_lines (s : State) : s.accept.lines = s.lines := rfl
@[simp] theorem State.accept_events (s : State) : s.accept.events = s.events := rfl
@[simp] theorem State.accept_draws (s : State) : s.accept.draws = s.draws := rfl
@[simp] theorem State.accept_readout (s : State) : s.accept.readout = s.readout := rfl

@[simp] theorem State.drive_params (l : Inputs) (s : State) : (s.drive l).params = s.params := rfl
@[simp] theorem State.drive_pkt (l : Inputs) (s : State) : (s.drive l).pkt = s.pkt := rfl
@[simp] theorem State.drive_status (l : Inputs) (s : State) : (s.drive l).status = s.status := rfl
@[simp] theorem State.drive_errExpected (l : Inputs) (s : State) :
    (s.drive l).errExpected = s.errExpected :=
  rfl
@[simp] theorem State.drive_errActual (l : Inputs) (s : State) :
    (s.drive l).errActual = s.errActual :=
  rfl
@[simp] theorem State.drive_errOffset (l : Inputs) (s : State) :
    (s.drive l).errOffset = s.errOffset :=
  rfl
@[simp] theorem State.drive_out (l : Inputs) (s : State) : (s.drive l).out = s.out := rfl
@[simp] theorem State.drive_outValid (l : Inputs) (s : State) :
    (s.drive l).outValid = s.outValid :=
  rfl
@[simp] theorem State.drive_resChk (l : Inputs) (s : State) : (s.drive l).resChk = s.resChk := rfl
@[simp] theorem State.drive_resTerm (l : Inputs) (s : State) :
    (s.drive l).resTerm = s.resTerm :=
  rfl
theorem State.drive_inProgress (l : Inputs) (s : State) :
    (s.drive l).inProgress = s.inProgress.map fun c =>
      { c with
        raced := c.raced ||
          decide ({ l with inBuf := l.inBuf.take s.params.maxInBytes } ≠ s.lines) } :=
  rfl

@[simp] theorem State.drive_lines (l : Inputs) (s : State) :
    (s.drive l).lines = { l with inBuf := l.inBuf.take s.params.maxInBytes } :=
  rfl
@[simp] theorem State.drive_events (l : Inputs) (s : State) : (s.drive l).events = s.events := rfl
@[simp] theorem State.drive_draws (l : Inputs) (s : State) : (s.drive l).draws = s.draws := rfl
@[simp] theorem State.drive_readout (l : Inputs) (s : State) :
    (s.drive l).readout = s.readout :=
  rfl

@[simp] theorem State.raceStatus_params (s : State) : s.raceStatus.params = s.params := rfl
@[simp] theorem State.raceStatus_pkt (s : State) : s.raceStatus.pkt = s.pkt := rfl
@[simp] theorem State.raceStatus_status (s : State) :
    s.raceStatus.status = Status.ofBits (Config.freeBits 3 s.draws 0) :=
  rfl
@[simp] theorem State.raceStatus_errExpected (s : State) :
    s.raceStatus.errExpected = Config.freeBits 32 s.draws 1 :=
  rfl
@[simp] theorem State.raceStatus_errActual (s : State) :
    s.raceStatus.errActual = Config.freeBits 32 s.draws 2 :=
  rfl
@[simp] theorem State.raceStatus_errOffset (s : State) :
    s.raceStatus.errOffset = Config.freeBits 16 s.draws 3 :=
  rfl
@[simp] theorem State.raceStatus_out (s : State) : s.raceStatus.out = s.out := rfl
@[simp] theorem State.raceStatus_outValid (s : State) : s.raceStatus.outValid = s.outValid := rfl
@[simp] theorem State.raceStatus_resChk (s : State) : s.raceStatus.resChk = s.resChk := rfl
@[simp] theorem State.raceStatus_resTerm (s : State) : s.raceStatus.resTerm = s.resTerm := rfl
@[simp] theorem State.raceStatus_inProgress (s : State) : s.raceStatus.inProgress = none := rfl
@[simp] theorem State.raceStatus_lines (s : State) : s.raceStatus.lines = s.lines := rfl
@[simp] theorem State.raceStatus_events (s : State) : s.raceStatus.events = s.events := rfl
@[simp] theorem State.raceStatus_draws (s : State) : s.raceStatus.draws = s.draws + 1 := rfl
@[simp] theorem State.raceStatus_readout (s : State) : s.raceStatus.readout = s.readout := rfl

@[simp] theorem State.applyReset_params (s : State) : s.applyReset.params = s.params := rfl
@[simp] theorem State.applyReset_pkt (s : State) : s.applyReset.pkt = State.reset.pkt := rfl
@[simp] theorem State.applyReset_status (s : State) :
    s.applyReset.status = State.reset.status :=
  rfl
@[simp] theorem State.applyReset_errExpected (s : State) :
    s.applyReset.errExpected = State.reset.errExpected :=
  rfl
@[simp] theorem State.applyReset_errActual (s : State) :
    s.applyReset.errActual = State.reset.errActual :=
  rfl
@[simp] theorem State.applyReset_errOffset (s : State) :
    s.applyReset.errOffset = State.reset.errOffset :=
  rfl
@[simp] theorem State.applyReset_out (s : State) : s.applyReset.out = State.reset.out := rfl
@[simp] theorem State.applyReset_outValid (s : State) :
    s.applyReset.outValid = State.reset.outValid :=
  rfl
@[simp] theorem State.applyReset_resChk (s : State) :
    s.applyReset.resChk = State.reset.resChk :=
  rfl
@[simp] theorem State.applyReset_resTerm (s : State) :
    s.applyReset.resTerm = State.reset.resTerm :=
  rfl
@[simp] theorem State.applyReset_inProgress (s : State) :
    s.applyReset.inProgress = State.reset.inProgress :=
  rfl
@[simp] theorem State.applyReset_lines (s : State) : s.applyReset.lines = s.lines := rfl
@[simp] theorem State.applyReset_events (s : State) : s.applyReset.events = s.events := rfl
@[simp] theorem State.applyReset_draws (s : State) : s.applyReset.draws = s.draws := rfl
@[simp] theorem State.applyReset_readout (s : State) : s.applyReset.readout = s.readout := rfl

end Sys2Proof.Machine
end

