-- ==== Sys2Proof/Laws/Ops.lean ====
section
/-! SUPPORT. What each shared operation can do, said once: how a command ends, which registers an update can
change, and the outcomes of a read. -/

namespace Sys2Proof.Machine

/-- Ending a command changes no register but `STATUS`, the error registers and `BUSY`
(60_exceptions.md R202). -/
theorem peek_complete (s : State) {r : Reg} (h : r.isStatus = false) (hb : r ≠ .busy) :
    s.complete.peek r = s.peek r := by
  cases r <;> first | rfl | exact absurd rfl hb | exact absurd h (by decide)

/-- A failure changes no register but `STATUS`, the error registers and `BUSY` (R203). -/
theorem peek_raise (st : Status) (e a : Word) (o : Half) (s : State) {r : Reg}
    (h : r.isStatus = false) (hb : r ≠ .busy) : (s.raise st e a o).peek r = s.peek r := by
  cases r <;> first | rfl | exact absurd rfl hb | exact absurd h (by decide)

/-- Loading `PKT` changes no register outside the packet (10_state.md R26). -/
theorem peek_loadPacket (p : Packet) (s : State) {r : Reg} (h : r.inPacket = false) :
    (s.loadPacket p).peek r = s.peek r := by
  cases r <;> first | rfl | exact absurd h (by decide) | simp [Reg.inPacket] at h

/-- Loading `OUT` changes no register but `OUT`, `OUT_LEN` and `OUT_VALID` (R30). -/
theorem peek_loadOut (b : List Byte) (s : State) {r : Reg}
    (h : commandWrites .serialize r = false) : (s.loadOut b).peek r = s.peek r := by
  cases r <;> first | rfl | simp [commandWrites] at h

/-- Loading `RES_CHK` changes no register but `RES_CHK` and `CHK_VALID` (R31). -/
theorem peek_loadChk (c : Half) (s : State) {r : Reg}
    (h : commandWrites .calcChecksum r = false) : (s.loadChk c).peek r = s.peek r := by
  cases r <;> first | rfl | simp [commandWrites] at h

/-- Loading `RES_TERM` changes no register but `RES_TERM` and `TERM_VALID` (R32). -/
theorem peek_loadTerm (b : Bool) (s : State) {r : Reg}
    (h : commandWrites .isTerminator r = false) : (s.loadTerm b).peek r = s.peek r := by
  cases r <;> first | rfl | simp [commandWrites] at h

/-- Without a packet, `needs_packet()` fails (40_serializer.md R101). -/
theorem needsPacket_none {s : State} (h : s.pkt = none) (k : Packet → State) :
    needsPacket s k = s.raise .noPacket 0 0 0 := by
  simp [needsPacket, h]

/-- With a packet, `needs_packet()` passes it on (R101). -/
theorem needsPacket_some {s : State} {p : Packet} (h : s.pkt = some p) (k : Packet → State) :
    needsPacket s k = k p := by
  simp [needsPacket, h]

/-- A payload within the capacity passes the check (R102). -/
theorem checkPayload_fits {input : List Byte} (h : input.length ≤ 1020) (s k : State) :
    checkPayload input s k = k := by
  simp [checkPayload, Nat.not_lt.mpr h]

/-- A payload beyond the capacity ends with PAYLOAD_TOO_LONG (R102). -/
theorem checkPayload_tooLong {input : List Byte} (h : 1020 < input.length) (s k : State) :
    checkPayload input s k = s.raise .payloadTooLong 1020 (BitVec.ofNat 32 input.length) 1020 := by
  simp [checkPayload, h]

/-- A mutation command on a packet (R120 to R128). -/
theorem mutatePacket_some {s : State} {p : Packet} (h : s.pkt = some p) (f : Packet → Packet) :
    mutatePacket f s = (s.loadPacket (f p)).complete := by
  simp [mutatePacket, needsPacket, h]

/-- A mutation command without a packet (R101). -/
theorem mutatePacket_none {s : State} (h : s.pkt = none) (f : Packet → Packet) :
    mutatePacket f s = s.raise .noPacket 0 0 0 := by
  simp [mutatePacket, needsPacket, h]

/-- Everything a host's read can do: fault, return what the register holds, or return a free value
(10_state.md R33, 70_reset_and_hazards.md R236). -/
theorem hostRead_cases (r : Reg) (s : State) :
    s.hostRead r = .fault (.noSuchByte r) ∨ s.hostRead r = .fault (.noValue r) ∨
      (∃ w, s.peek r = some w ∧ s.hostRead r = .next { s with readout := some w }) ∨
      s.hostRead r =
        .next { s with readout := some (freeRead s.draws r), draws := s.draws + 1 } := by
  unfold State.hostRead
  split
  · split
    · split
      · simp
      · split
        · exact .inr (.inr (.inl ⟨_, ‹_›, rfl⟩))
        · exact .inr (.inl rfl)
    · exact .inr (.inr (.inl ⟨_, ‹_›, rfl⟩))
    · exact .inr (.inl rfl)
  · exact .inl rfl

/-- The payload of a free packet fits its storage (10_state.md R22). -/
theorem freePacket_payload_fits (draw : Nat) : (freePacket draw).payload.length ≤ 1020 := by
  simp [freePacket, freePayload]

/-- A race writes nothing outside the registers of its command and `STATUS`: the host's side stays. -/
theorem raceWrites_hostSide (draw : Nat) (s : State) (op : Opcode) :
    (raceWrites draw s op).params = s.params ∧ (raceWrites draw s op).lines = s.lines ∧
      (raceWrites draw s op).events = s.events ∧
      (raceWrites draw s op).inProgress = s.inProgress := by
  cases op <;> exact ⟨rfl, rfl, rfl, rfl⟩

/-- The registers a command of word `l.cmd` may write, besides `STATUS` and the error registers, are those of
its rule (70_reset_and_hazards.md R233). -/
theorem mayWrite_of_ofWord {l : Inputs} {op : Opcode} (h : Opcode.ofWord l.cmd = some op) (r : Reg) :
    mayWrite l r = (r.isStatus || commandWrites op r) := by
  simp [mayWrite, h]

/-- Everything a race can do: free the status registers, and the registers of the command its word names
(R233). -/
theorem raceOutcome_cases (l : Inputs) (s : State) :
    (Opcode.ofWord l.cmd = none ∧ s.raceOutcome l = s.raceStatus) ∨
      ∃ op, Opcode.ofWord l.cmd = some op ∧ s.raceOutcome l = raceWrites s.draws s.raceStatus op := by
  unfold State.raceOutcome
  split
  · exact .inr ⟨_, ‹_›, rfl⟩
  · exact .inl ⟨‹_›, rfl⟩

/-- A free status changes no register but `STATUS`, the error registers and `BUSY` (R233). -/
theorem peek_raceStatus (s : State) {r : Reg} (h : r.isStatus = false) (hb : r ≠ .busy) :
    s.raceStatus.peek r = s.peek r := by
  cases r <;> first | rfl | exact absurd rfl hb | exact absurd h (by decide)

/-- Driving the lines keeps `IN` within `MAX_IN_BYTES` (20_memory.md R50). -/
theorem drive_inBuf_length (l : Inputs) (s : State) :
    (s.drive l).lines.inBuf.length ≤ (s.drive l).params.maxInBytes := by simp [State.drive]

/-- A free packet's payload fits the payload storage (10_state.md R22). -/
theorem freePkt_payload_length {draw : Nat} {p : Packet} (h : freePkt draw = some p) :
    p.payload.length ≤ 1020 := by
  unfold freePkt at h
  split at h <;> cases h
  exact freePacket_payload_fits draw

end Sys2Proof.Machine
end

