-- ==== Sys2Proof/Laws/PerInstr.lean ====
section
/-! SUPPORT. Statements about every command as syntax, one lemma per constructor of Instr. The family
CommandWord: the word a command assembles to has its reserved bits 0 and its opcode is the command's own
(30_encoding.md R81, R82, R86). -/

namespace Sys2Proof.Laws.CommandWord

/-- The command word of `i`: reserved bits 0, and `OPC` selects the command of `i` (R81, R82). -/
def Statement (i : Instr) : Prop :=
  (encode i).cmd.extractLsb 31 8 = 0 ∧
    Opcode.lookup ((encode i).cmd.extractLsb 7 0).toNat = some i.opcode

theorem construct (src dst : Half) (payload : List Byte) (seq ackn : Word) (freq : BitVec 5)
    (ack syn fin : Bool) (win : Word) :
    Statement (.construct src dst payload seq ackn freq ack syn fin win) :=
  encode_cmd_fields _

theorem serialize : Statement .serialize := encode_cmd_fields _

theorem calcChecksum (input : List Byte) : Statement (.calcChecksum input) := encode_cmd_fields _

theorem recalcChecksum : Statement .recalcChecksum := encode_cmd_fields _

theorem parse (input : List Byte) : Statement (.parse input) := encode_cmd_fields _

theorem isTerminator : Statement .isTerminator := encode_cmd_fields _

theorem setSrcPort (v : Half) : Statement (.setSrcPort v) := encode_cmd_fields _

theorem setDstPort (v : Half) : Statement (.setDstPort v) := encode_cmd_fields _

theorem setSeq (v : Word) : Statement (.setSeq v) := encode_cmd_fields _

theorem setAckNumber (v : Word) : Statement (.setAckNumber v) := encode_cmd_fields _

theorem setFrequency (v : BitVec 5) : Statement (.setFrequency v) := encode_cmd_fields _

theorem setAckFlag (v : Bool) : Statement (.setAckFlag v) := encode_cmd_fields _

theorem setSynFlag (v : Bool) : Statement (.setSynFlag v) := encode_cmd_fields _

theorem setFinFlag (v : Bool) : Statement (.setFinFlag v) := encode_cmd_fields _

theorem setWindow (v : Word) : Statement (.setWindow v) := encode_cmd_fields _

theorem setPayload (payload : List Byte) : Statement (.setPayload payload) := encode_cmd_fields _

end Sys2Proof.Laws.CommandWord
end

