-- ==== Sys2Proof/Laws/Step.lean ====
section
/-! SUPPORT. What a step can do, said once for each event and for each state of the block. -/

namespace Sys2Proof.Machine

/-- A step takes the oldest event. -/
theorem step_event {s : State} {e : Event} {rest : List Event} (h : s.events = e :: rest) :
    step s = State.handle { s with events := rest } e := by
  simp [step, State.advance, h]

/-- With no event left, a command in progress completes (70_reset_and_hazards.md R238). -/
theorem step_quiet {s : State} (h : s.events = []) : step s = s.onComplete := by
  simp [step, State.advance, h]

/-- While `BUSY = 0`, a presented command is performed (00_scope.md R5). -/
theorem onCommand_idle {s : State} (h : s.inProgress = none) : s.onCommand = perform s.lines s := by
  simp [State.onCommand, h]

/-- While `BUSY = 1`, a presented command has no effect (R234). -/
theorem onCommand_busy {s : State} {c : InProgress} (h : s.inProgress = some c) :
    s.onCommand = .next s := by
  simp [State.onCommand, h]

/-- While `BUSY = 0`, a presented command is accepted (10_state.md R28). -/
theorem onAccept_idle {s : State} (h : s.inProgress = none) : s.onAccept = .next s.accept := by
  simp [State.onAccept, h]

/-- While `BUSY = 1`, a presented command is not accepted (R234). -/
theorem onAccept_busy {s : State} {c : InProgress} (h : s.inProgress = some c) :
    s.onAccept = .next s := by
  simp [State.onAccept, h]

/-- The command in progress completes (R238). -/
theorem onComplete_busy {s : State} {c : InProgress} (h : s.inProgress = some c) :
    s.onComplete = s.finish c := by
  simp [State.onComplete, h]

/-- With no command in progress, nothing completes. -/
theorem onComplete_idle {s : State} (h : s.inProgress = none) : s.onComplete = .next s := by
  simp [State.onComplete, h]

/-- A legal command runs its meaning (30_encoding.md R84). -/
theorem perform_ok {l : Inputs} {s : State} {i : Instr} (h : decode s.params l = .ok i) :
    perform l s = exec i s := by
  simp [perform, h]

/-- An illegal command ends with ILLEGAL_COMMAND (R84). -/
theorem perform_error {l : Inputs} {s : State} {e : DecodeError} (h : decode s.params l = .error e) :
    perform l s = .next (s.illegalCommand l.cmd) := by
  simp [perform, h]

/-- Everything a command can do: it ends with OK after writes to `PKT`, `OUT`, `RES_CHK` or `RES_TERM`, or it
fails with the state otherwise as it was (60_exceptions.md R202, R203). -/
theorem exec_cases {i : Instr} {s t : State} (h : exec i s = .next t) :
    (∃ p, t = (s.loadPacket p).complete) ∨ (∃ b, t = (s.loadOut b).complete) ∨
      (∃ c, t = (s.loadChk c).complete) ∨ (∃ b, t = (s.loadTerm b).complete) ∨
      (∃ st e a o, st ≠ .ok ∧ st ≠ .none ∧ t = s.raise st e a o) := by
  cases i <;>
    simp only [exec, execConstruct, execSerialize, execCalcChecksum, execRecalcChecksum, execParse,
      execIsTerminator, execSetSrcPort, execSetDstPort, execSetSeq, execSetAckNumber,
      execSetFrequency, execSetAckFlag, execSetSynFlag, execSetFinFlag, execSetWindow,
      execSetPayload, mutatePacket, needsPacket, checkPayload, Host.Outcome.next.injEq] at h <;>
    subst h <;> (repeat' split) <;>
    first
    | exact .inl ⟨_, rfl⟩
    | exact .inr (.inl ⟨_, rfl⟩)
    | exact .inr (.inr (.inl ⟨_, rfl⟩))
    | exact .inr (.inr (.inr (.inl ⟨_, rfl⟩)))
    | exact .inr (.inr (.inr (.inr ⟨_, _, _, _, by decide, by decide, rfl⟩)))

end Sys2Proof.Machine
end

