-- ==== Sys2Proof/Laws/Wire.lean ====
section
/-! SUPPORT. The wire form of a packet: its length, its bytes, and what the parser's field assembly does with
them. -/

namespace Sys2Proof.Machine

@[simp] theorem header_length (p : Packet) : p.header.length = 20 := rfl

/-- `len(ser(P)) = 20 + P.payload_len` (40_serializer.md R100). -/
@[simp] theorem ser_length (p : Packet) : (ser p).length = 20 + p.payload.length := by
  simp [ser]

/-- The bytes of `ser(P)` after the header are the payload (20_memory.md R53). -/
@[simp] theorem ser_drop (p : Packet) : (ser p).drop 20 = p.payload := by
  simp [ser, List.drop_append]

/-- The zeroed copy of `ser(P)` is the serialization with the checksum field 0 (41_checksum.md R141). -/
theorem zeroedCopy_ser (p : Packet) : zeroedCopy (ser p) = ser { p with checksum := 0 } := by
  have hc := p.checksum.isLt
  have hd := p.dataOffset.isLt
  have h12 : ∀ q : Packet, q.word3.extractLsb 31 24 =
      q.frequency ++ BitVec.ofBool q.ack ++ BitVec.ofBool q.syn ++ BitVec.ofBool q.fin := by
    intro q
    have := q.checksum.isLt
    have := q.dataOffset.isLt
    apply BitVec.eq_of_toNat_eq
    have := (q.frequency ++ BitVec.ofBool q.ack ++ BitVec.ofBool q.syn ++ BitVec.ofBool q.fin).isLt
    rw [toNat_field, Packet.word3, toNat_append_add, toNat_append_add]
    omega
  have h13 : ∀ q : Packet, q.word3.extractLsb 23 16 = q.dataOffset := by
    intro q
    have := q.checksum.isLt
    have := q.dataOffset.isLt
    apply BitVec.eq_of_toNat_eq
    rw [toNat_field, Packet.word3, toNat_append_add, toNat_append_add]
    omega
  have hz : (0 : Half).toNat = 0 := rfl
  have hzb : (0 : Byte).toNat = 0 := rfl
  have h14 : ({ p with checksum := 0 } : Packet).word3.extractLsb 15 8 = 0 := by
    apply BitVec.eq_of_toNat_eq
    rw [toNat_field, Packet.word3, toNat_append_add, hz, hzb]
    omega
  have h15 : ({ p with checksum := 0 } : Packet).word3.extractLsb 7 0 = 0 := by
    apply BitVec.eq_of_toNat_eq
    rw [toNat_field, Packet.word3, toNat_append_add, hz, hzb]
    omega
  simp only [zeroedCopy, ser, Packet.header, bytesBe32, List.cons_append, List.nil_append,
    List.set_cons_succ, List.set_cons_zero, h12, h13, h14, h15, Packet.word0]

/-- The checksum field a serialization carries in bytes 14 and 15 is `PKT.checksum` (30_encoding.md R74). -/
theorem storedChecksum_ser (p : Packet) : storedChecksum (ser p) = p.checksum := by
  have hc := p.checksum.isLt
  show be16 (p.word3.extractLsb 15 8) (p.word3.extractLsb 7 0) = _
  apply BitVec.eq_of_toNat_eq
  rw [be16, toNat_append_add, toNat_field, toNat_field, Packet.word3, toNat_append_add]
  omega

/-- The payload length a serialization declares is `4 × data_offset` (R73, R75). -/
theorem declaredPayload_ser (p : Packet) : declaredPayload (ser p) = 4 * p.dataOffset.toNat := by
  have hc := p.checksum.isLt
  have hd := p.dataOffset.isLt
  show 4 * (p.word3.extractLsb 23 16).toNat = _
  rw [toNat_field, Packet.word3, toNat_append_add, toNat_append_add]
  omega

/-- Unpacking a serialization gives the packet back, when the payload is as long as the header declares
(30_encoding.md R76; 42_parser.md R178). -/
theorem unpack_ser {p : Packet} (h : p.payload.length = 4 * p.dataOffset.toNat) :
    unpack (ser p) = p := by
  obtain ⟨src, dst, seq, ackn, freq, ack, syn, fin, off, chk, win, payload⟩ := p
  have hsrc := src.isLt
  have hdst := dst.isLt
  have hoff := off.isLt
  have hchk := chk.isLt
  have hfreq := freq.isLt
  have hpay := declaredPayload_ser ⟨src, dst, seq, ackn, freq, ack, syn, fin, off, chk, win, payload⟩
  have hck := storedChecksum_ser ⟨src, dst, seq, ackn, freq, ack, syn, fin, off, chk, win, payload⟩
  have hwin := be32_fields win
  have hseq := be32_fields seq
  have hackn := be32_fields ackn
  have h0 : (src ++ dst : Word).toNat = src.toNat * 2 ^ 16 + dst.toNat := toNat_append_add src dst
  have h3 : (freq ++ BitVec.ofBool ack ++ BitVec.ofBool syn ++ BitVec.ofBool fin ++ off ++ chk).toNat
      = ((((freq.toNat * 2 + ack.toNat) * 2 + syn.toNat) * 2 + fin.toNat) * 2 ^ 8 + off.toNat) * 2 ^ 16
        + chk.toNat := by
    simp only [toNat_append_add, BitVec.toNat_ofBool, Nat.pow_one]
  have hb : ∀ b : Bool, b.toNat < 2 := fun b => by cases b <;> decide
  have ha := hb ack
  have hs := hb syn
  have hf := hb fin
  have hbit : ∀ (x : Byte) (i : Nat) (b : Bool), x.toNat / 2 ^ i % 2 = b.toNat → x.getLsbD i = b := by
    intro x i b hx
    rw [BitVec.getLsbD, Nat.testBit_eq_decide_div_mod_eq, hx]
    cases b <;> decide
  have h12 : (byteAt (ser ⟨src, dst, seq, ackn, freq, ack, syn, fin, off, chk, win, payload⟩) 12).toNat
      = ((freq.toNat * 2 + ack.toNat) * 2 + syn.toNat) * 2 + fin.toNat := by
    show ((freq ++ BitVec.ofBool ack ++ BitVec.ofBool syn ++ BitVec.ofBool fin ++ off ++ chk).extractLsb
      31 24).toNat = _
    rw [toNat_field, h3]
    omega
  simp only [unpack, Packet.mk.injEq]
  refine ⟨?_, ?_, hseq, hackn, ?_, ?_, ?_, ?_, ?_, hck, hwin, ?_⟩
  · apply BitVec.eq_of_toNat_eq
    show (be16 ((src ++ dst : Word).extractLsb 31 24) ((src ++ dst : Word).extractLsb 23 16)).toNat = _
    rw [be16, toNat_append_add, toNat_field, toNat_field, h0]
    omega
  · apply BitVec.eq_of_toNat_eq
    show (be16 ((src ++ dst : Word).extractLsb 15 8) ((src ++ dst : Word).extractLsb 7 0)).toNat = _
    rw [be16, toNat_append_add, toNat_field, toNat_field, h0]
    omega
  · apply BitVec.eq_of_toNat_eq
    rw [frequencyOf, toNat_field, h12]
    omega
  · apply hbit
    rw [h12]
    omega
  · apply hbit
    rw [h12]
    omega
  · apply hbit
    rw [h12]
    omega
  · apply BitVec.eq_of_toNat_eq
    show ((freq ++ BitVec.ofBool ack ++ BitVec.ofBool syn ++ BitVec.ofBool fin ++ off ++ chk).extractLsb
      23 16).toNat = _
    rw [toNat_field, h3]
    omega
  · rw [hpay, ser_drop, ← h, List.take_length]

/-- A buffer of at least 20 bytes has twenty first bytes. -/
theorem twenty_bytes {s : List Byte} (h : 20 ≤ s.length) :
    ∃ b0 b1 b2 b3 b4 b5 b6 b7 b8 b9 b10 b11 b12 b13 b14 b15 b16 b17 b18 b19 rest,
      s = b0 :: b1 :: b2 :: b3 :: b4 :: b5 :: b6 :: b7 :: b8 :: b9 :: b10 :: b11 :: b12 :: b13 ::
        b14 :: b15 :: b16 :: b17 :: b18 :: b19 :: rest := by
  have split : ∀ (n : Nat) (l : List Byte), n + 1 ≤ l.length → ∃ b t, l = b :: t ∧ n ≤ t.length := by
    intro n l hl
    cases l with
    | nil => exact absurd hl (by simp)
    | cons b t => exact ⟨b, t, rfl, by simpa using hl⟩
  obtain ⟨b0, t0, rfl, h0⟩ := split 19 s h
  obtain ⟨b1, t1, rfl, h1⟩ := split 18 t0 h0
  obtain ⟨b2, t2, rfl, h2⟩ := split 17 t1 h1
  obtain ⟨b3, t3, rfl, h3⟩ := split 16 t2 h2
  obtain ⟨b4, t4, rfl, h4⟩ := split 15 t3 h3
  obtain ⟨b5, t5, rfl, h5⟩ := split 14 t4 h4
  obtain ⟨b6, t6, rfl, h6⟩ := split 13 t5 h5
  obtain ⟨b7, t7, rfl, h7⟩ := split 12 t6 h6
  obtain ⟨b8, t8, rfl, h8⟩ := split 11 t7 h7
  obtain ⟨b9, t9, rfl, h9⟩ := split 10 t8 h8
  obtain ⟨b10, t10, rfl, h10⟩ := split 9 t9 h9
  obtain ⟨b11, t11, rfl, h11⟩ := split 8 t10 h10
  obtain ⟨b12, t12, rfl, h12⟩ := split 7 t11 h11
  obtain ⟨b13, t13, rfl, h13⟩ := split 6 t12 h12
  obtain ⟨b14, t14, rfl, h14⟩ := split 5 t13 h13
  obtain ⟨b15, t15, rfl, h15⟩ := split 4 t14 h14
  obtain ⟨b16, t16, rfl, h16⟩ := split 3 t15 h15
  obtain ⟨b17, t17, rfl, h17⟩ := split 2 t16 h16
  obtain ⟨b18, t18, rfl, h18⟩ := split 1 t17 h17
  obtain ⟨b19, t19, rfl, h19⟩ := split 0 t18 h18
  exact ⟨b0, b1, b2, b3, b4, b5, b6, b7, b8, b9, b10, b11, b12, b13, b14, b15, b16, b17, b18, b19, t19,
    rfl⟩

/-- Serializing what a buffer unpacks to gives the packet's own bytes back (30_encoding.md R76; 42_parser.md
R174). -/
theorem ser_unpack {s : List Byte} (h : 20 + declaredPayload s ≤ s.length) :
    ser (unpack s) = s.take (20 + declaredPayload s) := by
  obtain ⟨b0, b1, b2, b3, b4, b5, b6, b7, b8, b9, b10, b11, b12, b13, b14, b15, b16, b17, b18, b19,
    rest, rfl⟩ := twenty_bytes (s := s) (by omega)
  have bytes : ∀ (v : Word) (w x y z : Byte), v = be32 w x y z → bytesBe32 v = [w, x, y, z] := by
    rintro _ w x y z rfl
    exact bytesBe32_be32 w x y z
  have flags : ∀ b : Byte, flagByte (frequencyOf b) (ackOf b) (synOf b) (finOf b) = b := by
    decide +kernel
  generalize hs : b0 :: b1 :: b2 :: b3 :: b4 :: b5 :: b6 :: b7 :: b8 :: b9 :: b10 :: b11 :: b12 ::
    b13 :: b14 :: b15 :: b16 :: b17 :: b18 :: b19 :: rest = s at h
  have word0 : (unpack s).word0 = be32 b0 b1 b2 b3 := by
    subst hs
    apply BitVec.eq_of_toNat_eq
    show (be16 b0 b1 ++ be16 b2 b3).toNat = _
    simp only [be16, be32, toNat_append_add]
    omega
  have seq : (unpack s).seqNumber = be32 b4 b5 b6 b7 := by subst hs; rfl
  have ackn : (unpack s).ackNumber = be32 b8 b9 b10 b11 := by subst hs; rfl
  have word3 : (unpack s).word3 = be32 b12 b13 b14 b15 := by
    subst hs
    show flagByte (frequencyOf b12) (ackOf b12) (synOf b12) (finOf b12) ++ b13 ++ be16 b14 b15 = _
    rw [flags]
    apply BitVec.eq_of_toNat_eq
    simp only [be16, be32, toNat_append_add]
    omega
  have window : (unpack s).windowSize = be32 b16 b17 b18 b19 := by subst hs; rfl
  have payload : (unpack s).payload = rest.take (declaredPayload s) := by subst hs; rfl
  rw [ser, Packet.header, bytes _ _ _ _ _ word0, bytes _ _ _ _ _ seq, bytes _ _ _ _ _ ackn,
    bytes _ _ _ _ _ word3, bytes _ _ _ _ _ window, payload, ← hs, Nat.add_comm 20]
  simp

/-- A sealed packet's checksum is the zeroed-field checksum of its own serialization (40_serializer.md
R104). -/
theorem sealed_checksum (o : DigestIntOrder) (p : Packet) :
    (p.sealed o).checksum = chkZ o (ser (p.sealed o)) := by
  rw [chkZ, zeroedCopy_ser]
  rfl

end Sys2Proof.Machine
end

