-- ==== Sys2Proof/Machine/Assembler.lean ====
section
/-! DEFINITION. The text of a line: the mnemonic, then its operands separated by commas (30_encoding.md
R86, R87). Text is a list of characters; what is no line of the syntax has no reading. DEDUCED: the named
operands of CONSTRUCT may stand in any order (log 13). -/

namespace Sys2Proof.Machine

/-- The text without the spaces it begins with. -/
def dropSpaces : List Char → List Char
  | ' ' :: t => dropSpaces t
  | t => t

/-- The text without the spaces around it. -/
def trim (t : List Char) : List Char := (dropSpaces (dropSpaces t).reverse).reverse

/-- The value of a hexadecimal digit. -/
def hexDigit (c : Char) : Option Nat :=
  let n := c.toNat
  if 48 ≤ n ∧ n ≤ 57 then some (n - 48)
  else if 65 ≤ n ∧ n ≤ 70 then some (n - 55)
  else if 97 ≤ n ∧ n ≤ 102 then some (n - 87)
  else none

/-- The number that digits of a base write, after the digits read so far. -/
def digits (base : Nat) : Nat → List Char → Option Nat
  | acc, [] => some acc
  | acc, c :: t =>
    match hexDigit c with
    | some d => if d < base then digits base (acc * base + d) t else none
    | none => none

/-- An unsigned number, decimal or `0x` hexadecimal (R86). -/
def number : List Char → Option Nat
  | [] => none
  | ['0', 'x'] => none
  | '0' :: 'x' :: t => digits 16 0 t
  | t => digits 10 0 t

/-- `<u16>`, `<u32>` or `<u5>`: a number that fits the width (R86). -/
def numberOf (w : Nat) (t : List Char) : Option (BitVec w) :=
  (number t).bind fun n => if n < 2 ^ w then some (BitVec.ofNat w n) else none

/-- `<bit>` is 0 or 1 (R86). -/
def bitOf : List Char → Option Bool
  | ['0'] => some false
  | ['1'] => some true
  | _ => none

/-- The inside of `x"..."`, up to the closing quote: hexadecimal byte pairs, optionally separated by spaces
(R86). -/
def hexPairs : List Char → Option (List Byte)
  | ['"'] => some []
  | ' ' :: t => hexPairs t
  | a :: b :: t =>
    match hexDigit a, hexDigit b, hexPairs t with
    | some x, some y, some rest => some (BitVec.ofNat 8 (16 * x + y) :: rest)
    | _, _, _ => none
  | _ => none

/-- The inside of `b"..."`, up to the closing quote: ASCII characters, one byte each (R86). -/
def asciiBytes : List Char → Option (List Byte)
  | ['"'] => some []
  | c :: t =>
    if c = '"' ∨ 128 ≤ c.toNat then none
    else (asciiBytes t).map fun rest => BitVec.ofNat 8 c.toNat :: rest
  | [] => none

/-- `<bytes>`: a byte-sequence literal (R86). -/
def bytesOf : List Char → Option (List Byte)
  | 'x' :: '"' :: t => hexPairs t
  | 'b' :: '"' :: t => asciiBytes t
  | _ => none

/-- The operands of a line: its parts between the commas that stand outside a byte literal. The arguments
are whether a literal is open and the part read so far, backwards. -/
def operandsAux : Bool → List Char → List Char → List (List Char)
  | _, part, [] => [trim part.reverse]
  | true, part, c :: t => operandsAux (c ≠ '"') (c :: part) t
  | false, part, c :: t =>
    if c = ',' then trim part.reverse :: operandsAux false [] t
    else operandsAux (c = '"') (c :: part) t

/-- The operands of a line (R86). -/
def operandsOf (t : List Char) : List (List Char) :=
  if trim t = [] then [] else operandsAux false [] t

/-- A named operand `key=value`, split at its first `=`; the key read so far is held backwards. -/
def keyValueAux : List Char → List Char → Option (List Char × List Char)
  | _, [] => none
  | key, '=' :: t => some (key.reverse, t)
  | key, c :: t => keyValueAux (c :: key) t

/-- The named operands of a CONSTRUCT line; none where a part is not named or a name stands twice. -/
def namedOperands : List (List Char) → Option (List (List Char × List Char))
  | [] => some []
  | part :: rest =>
    match keyValueAux [] part, namedOperands rest with
    | some kv, some kvs => if kvs.any fun x => x.1 = kv.1 then none else some (kv :: kvs)
    | _, _ => none

/-- An operand that must be given. -/
def required {α : Type} (f : List Char → Option α) (key : List Char)
    (kvs : List (List Char × List Char)) : Option α :=
  (kvs.lookup key).bind f

/-- An operand that may be omitted; what is given must be readable (R87). -/
def optional {α : Type} (f : List Char → Option α) (key : List Char)
    (kvs : List (List Char × List Char)) : Option (Option α) :=
  match kvs.lookup key with
  | none => some none
  | some t => (f t).map some

/-- The operand names of CONSTRUCT (R86). -/
def constructKeys : List (List Char) :=
  [['s', 'r', 'c'], ['d', 's', 't'], ['p', 'a', 'y', 'l', 'o', 'a', 'd'], ['s', 'e', 'q'],
   ['a', 'c', 'k', 'n'], ['f', 'r', 'e', 'q'], ['a', 'c', 'k'], ['s', 'y', 'n'], ['f', 'i', 'n'],
   ['w', 'i', 'n']]

/-- The operands of a CONSTRUCT line (R86, R87). -/
def constructLine (parts : List (List Char)) : Option ConstructLine := do
  let kvs ← namedOperands parts
  if kvs.all fun kv => constructKeys.contains kv.1 then
    let src ← required (numberOf 16) ['s', 'r', 'c'] kvs
    let dst ← required (numberOf 16) ['d', 's', 't'] kvs
    let payload ← required bytesOf ['p', 'a', 'y', 'l', 'o', 'a', 'd'] kvs
    let seq ← optional (numberOf 32) ['s', 'e', 'q'] kvs
    let ackn ← optional (numberOf 32) ['a', 'c', 'k', 'n'] kvs
    let freq ← optional (numberOf 5) ['f', 'r', 'e', 'q'] kvs
    let ack ← optional bitOf ['a', 'c', 'k'] kvs
    let syn ← optional bitOf ['s', 'y', 'n'] kvs
    let fin ← optional bitOf ['f', 'i', 'n'] kvs
    let win ← optional (numberOf 32) ['w', 'i', 'n'] kvs
    some
      { src := src, dst := dst, payload := payload, seq := seq, ackn := ackn, freq := freq
        ack := ack, syn := syn, fin := fin, win := win }
  else none

/-- The command that a mnemonic other than CONSTRUCT and its operands write (R86). -/
def plainLine (mnemonic : String) (parts : List (List Char)) : Option Instr :=
  match mnemonic, parts with
  | "SERIALIZE", [] => some .serialize
  | "RECALC_CHECKSUM", [] => some .recalcChecksum
  | "IS_TERMINATOR", [] => some .isTerminator
  | "CALC_CHECKSUM", [t] => (bytesOf t).map .calcChecksum
  | "PARSE", [t] => (bytesOf t).map .parse
  | "SET_SRC_PORT", [t] => (numberOf 16 t).map .setSrcPort
  | "SET_DST_PORT", [t] => (numberOf 16 t).map .setDstPort
  | "SET_SEQ", [t] => (numberOf 32 t).map .setSeq
  | "SET_ACK_NUMBER", [t] => (numberOf 32 t).map .setAckNumber
  | "SET_FREQUENCY", [t] => (numberOf 5 t).map .setFrequency
  | "SET_ACK_FLAG", [t] => (bitOf t).map .setAckFlag
  | "SET_SYN_FLAG", [t] => (bitOf t).map .setSynFlag
  | "SET_FIN_FLAG", [t] => (bitOf t).map .setFinFlag
  | "SET_WINDOW", [t] => (numberOf 32 t).map .setWindow
  | "SET_PAYLOAD", [t] => (bytesOf t).map .setPayload
  | _, _ => none

/-- The mnemonic a text begins with, and the rest. -/
def splitMnemonic (t : List Char) : List Char × List Char :=
  ((dropSpaces t).takeWhile fun c => c ≠ ' ', (dropSpaces t).dropWhile fun c => c ≠ ' ')

/-- A line of R86, with the defaults of R87. -/
def commandLine (t : List Char) : Option Line :=
  let m := splitMnemonic t
  if m.1 = ['C', 'O', 'N', 'S', 'T', 'R', 'U', 'C', 'T'] then
    (constructLine (operandsOf m.2)).map .construct
  else (plainLine (String.ofList m.1) (operandsOf m.2)).map .command

/-- A line of R86 or R87. SEAL takes a SET_* line. -/
def assemble (t : List Char) : Option Line :=
  let m := splitMnemonic t
  if m.1 = ['S', 'E', 'A', 'L'] then
    match commandLine m.2 with
    | some (.command i) => if isSet i then some (.seal i) else none
    | _ => none
  else if m.1 = ['R', 'O', 'U', 'N', 'D', 'T', 'R', 'I', 'P'] ∧ trim m.2 = [] then some .roundtrip
  else commandLine t

end Sys2Proof.Machine
end

