-- ==== Sys2Proof/Tests/Slice0.lean ====
section
/-! SUPPORT. The model's own tests. Expected results come from spec/95_test_vectors.md, by the vector's id, or
are computed by hand from the cited rule. The theorems named witness_<Obligation> show a state and operands that
meet the hypotheses of that statement. -/

namespace Sys2Proof.Tests

set_option Elab.async false

open Sys2Proof Sys2Proof.Machine

/-! ### Helpers -/

/-- The state a result goes on with. -/
def after : Result → Option State
  | .next t => some t
  | .fault _ => none
  | .refused _ => none

/-- `STATUS` and the error registers after a result. -/
def outcome (r : Result) : Option (Status × Word × Word × Half) :=
  (after r).map fun t => (t.status, t.errExpected, t.errActual, t.errOffset)

/-- `ser(PKT)` after a result. -/
def wireAfter (r : Result) : Option (List Byte) :=
  (after r).bind fun t => t.pkt.map ser

/-- The checksum of `PKT` after a result. -/
def checksumAfter (r : Result) : Option Half :=
  (after r).bind fun t => t.pkt.map Packet.checksum

/-- The packet of SER1. -/
def packet1 : Packet where
  srcPort := 80
  dstPort := 443
  seqNumber := 1
  ackNumber := 0
  frequency := 1
  ack := false
  syn := true
  fin := false
  dataOffset := 0
  checksum := 0x4106
  windowSize := 1024
  payload := []

/-- SER1's output. -/
def bytes1 : List Byte :=
  [0x00, 0x50, 0x01, 0xBB, 0x00, 0x00, 0x00, 0x01, 0x00, 0x00, 0x00, 0x00, 0x0A, 0x00, 0x41, 0x06,
   0x00, 0x00, 0x04, 0x00]

/-- SER6's output. -/
def bytes6 : List Byte :=
  [0x00, 0x50, 0x01, 0xBB, 0x00, 0x00, 0x00, 0x00, 0x00, 0x00, 0x00, 0x00, 0x08, 0x02, 0xA6, 0x48,
   0x00, 0x00, 0x04, 0x00, 0x68, 0x65, 0x6C, 0x6C, 0x6F]

/-- The header of PAR10's input. -/
def header10 : List Byte :=
  [0x00, 0x50, 0x01, 0xBB, 0x00, 0x00, 0x00, 0x01, 0x00, 0x00, 0x00, 0x00, 0x0A, 0x00, 0xE6, 0xB5,
   0x00, 0x00, 0x04, 0x00]

/-- PAR11's input. -/
def bytes11 : List Byte :=
  [0x00, 0x50, 0x01, 0xBB, 0x00, 0x00, 0x00, 0x01, 0x00, 0x00, 0x00, 0x00, 0x0A, 0x01, 0x89, 0x5B,
   0x00, 0x00, 0x04, 0x00]

/-- `b"hello"`. -/
def hello : List Byte := [0x68, 0x65, 0x6C, 0x6C, 0x6F]

/-- The state after reset, with the packet of SER1 loaded. -/
def loaded : State := { State.reset with pkt := some packet1 }

/-- The state after reset, of a block with `UNALIGNED_PAYLOAD = LEGACY`. -/
def legacy : State :=
  { State.reset with params := { Params.default with unalignedPayload := .legacy } }

/-- Input lines with a different value on each of them and two of three bytes of `IN` in the input. -/
def fullLines : Inputs where
  cmd := 0
  aSrc := 0x0050
  aDst := 0x01BB
  aSeq := 0x01020304
  aAckn := 0xA0B0C0D0
  aFreq := 0x16
  aFlags := 0x5
  aWin := 0x00000400
  inBuf := [0x41, 0x42, 0x43]
  inLen := 2

/-- The state after reset with an event to come. -/
def withEvent (e : Event) : State := { State.reset with events := [e] }

/-- The state after reset with `cmd` on the full lines and the command presented. -/
def presenting (cmd : Word) : State :=
  { State.reset with lines := { fullLines with cmd := cmd }, events := [.command] }

/-- The state with SER1's packet, while a SERIALIZE is in progress. -/
def busy (e : Event) (raced : Bool) : State :=
  { loaded with
    lines := { Inputs.zero with cmd := 0x00000002 }
    inProgress := some { inputs := { Inputs.zero with cmd := 0x00000002 }, raced := raced }
    events := [e] }

/-! ### Well-formed commands -/

/-- R84 case 3: an input that does not fit `IN` is refused by the check for the buffer. -/
theorem test_input_too_long_is_ill_formed :
    ¬ (Instr.parse (zeros 2049)).FitsBuffer Params.default ∧
      (Instr.parse (zeros 2048)).FitsBuffer Params.default := by
  decide +kernel

/-- R80: an input whose length does not fit `IN_LEN` is refused by the check for the length. -/
theorem test_length_above_sixteen_bits_is_ill_formed :
    ¬ (Instr.calcChecksum (zeros 65536)).FitsLength ∧
      (Instr.calcChecksum (zeros 65535)).FitsLength := by
  simp only [Instr.FitsLength, Instr.inputLength, zeros_length]
  decide

/-! ### Decoding (30_encoding.md R81, R82; every word bit by bit) -/

theorem test_decode_construct :
    decode Params.default { fullLines with cmd := 0b00000000000000000000000000000001 } =
      .ok (.construct 0x0050 0x01BB [0x41, 0x42] 0x01020304 0xA0B0C0D0 0x16 true false true 0x400) := by
  decide

theorem test_decode_serialize :
    decode Params.default { fullLines with cmd := 0b00000000000000000000000000000010 } =
      .ok .serialize := by decide

theorem test_decode_calcChecksum :
    decode Params.default { fullLines with cmd := 0b00000000000000000000000000000011 } =
      .ok (.calcChecksum [0x41, 0x42]) := by decide

theorem test_decode_recalcChecksum :
    decode Params.default { fullLines with cmd := 0b00000000000000000000000000000100 } =
      .ok .recalcChecksum := by decide

theorem test_decode_parse :
    decode Params.default { fullLines with cmd := 0b00000000000000000000000000000101 } =
      .ok (.parse [0x41, 0x42]) := by decide

theorem test_decode_isTerminator :
    decode Params.default { fullLines with cmd := 0b00000000000000000000000000000110 } =
      .ok .isTerminator := by decide

theorem test_decode_setSrcPort :
    decode Params.default { fullLines with cmd := 0b00000000000000000000000000010000 } =
      .ok (.setSrcPort 0x0050) := by decide

theorem test_decode_setDstPort :
    decode Params.default { fullLines with cmd := 0b00000000000000000000000000010001 } =
      .ok (.setDstPort 0x01BB) := by decide

theorem test_decode_setSeq :
    decode Params.default { fullLines with cmd := 0b00000000000000000000000000010010 } =
      .ok (.setSeq 0x01020304) := by decide

theorem test_decode_setAckNumber :
    decode Params.default { fullLines with cmd := 0b00000000000000000000000000010011 } =
      .ok (.setAckNumber 0xA0B0C0D0) := by decide

theorem test_decode_setFrequency :
    decode Params.default { fullLines with cmd := 0b00000000000000000000000000010100 } =
      .ok (.setFrequency 0x16) := by decide

theorem test_decode_setAckFlag :
    decode Params.default
        { fullLines with cmd := 0b00000000000000000000000000010101, aFlags := 0b100 } =
      .ok (.setAckFlag true) := by decide

theorem test_decode_setSynFlag :
    decode Params.default
        { fullLines with cmd := 0b00000000000000000000000000010110, aFlags := 0b010 } =
      .ok (.setSynFlag true) := by decide

theorem test_decode_setFinFlag :
    decode Params.default
        { fullLines with cmd := 0b00000000000000000000000000010111, aFlags := 0b001 } =
      .ok (.setFinFlag true) := by decide

theorem test_decode_setWindow :
    decode Params.default { fullLines with cmd := 0b00000000000000000000000000011000 } =
      .ok (.setWindow 0x00000400) := by decide

theorem test_decode_setPayload :
    decode Params.default { fullLines with cmd := 0b00000000000000000000000000011001 } =
      .ok (.setPayload [0x41, 0x42]) := by decide

/-- DEC1 to DEC5: unassigned values of `OPC`. -/
theorem test_unassigned_opcodes :
    ([0x00000000, 0x00000007, 0x0000000F, 0x0000001A, 0x000000FF] : List Word).map
        (fun w => decode Params.default { fullLines with cmd := w }) =
      List.replicate 5 (.error .unassignedOpcode) := by decide

/-- DEC6, DEC7: reserved bits. -/
theorem test_reserved_bits :
    ([0x00000102, 0x80000001] : List Word).map
        (fun w => decode Params.default { fullLines with cmd := w }) =
      List.replicate 2 (.error .reservedBits) := by decide

/-- SER8, CHK8, PAR14, SER9: `IN_LEN = 2049` for the commands that read `IN`, and for SERIALIZE. -/
theorem test_input_too_long :
    ([0x00000001, 0x00000003, 0x00000005, 0x00000019, 0x00000002] : List Word).map
        (fun w => decode Params.default { fullLines with cmd := w, inLen := 2049 }) =
      List.replicate 4 (.error .inputTooLong) ++ [.ok .serialize] := by
  decide

/-- R86: `SET_ACK_FLAG 1` drives `CMD = 0x00000015` and bit 2 of `A_FLAGS`. -/
theorem test_encode_setAckFlag :
    (encode (.setAckFlag true)).cmd = 0x00000015 ∧ (encode (.setAckFlag true)).aFlags = 0b100 := by
  decide

/-- The words of spec/opcode_table.json, with every operand input 0. -/
theorem test_table_words :
    decodeTableWord 32 0x19 = some (.setPayload []) ∧ decodeTableWord 32 0x1A = none := by decide

/-! ### The serializer -/

/-- SER2. -/
theorem test_construct_full :
    wireAfter (exec (.construct 1 2 [0x41, 0x42, 0x43, 0x44] 0x01020304 0xA0B0C0D0 31 true true true
        0xFFFFFFFF) State.reset) =
      some [0x00, 0x01, 0x00, 0x02, 0x01, 0x02, 0x03, 0x04, 0xA0, 0xB0, 0xC0, 0xD0, 0xFF, 0x01, 0x69,
        0xC9, 0xFF, 0xFF, 0xFF, 0xFF, 0x41, 0x42, 0x43, 0x44] := by
  decide +kernel

/-- SER6: `LEGACY` stores the operand unpadded. -/
theorem test_construct_legacy :
    wireAfter (exec (.construct 80 443 hello 0 0 1 false false false 1024) legacy) = some bytes6 := by
  decide +kernel

/-- SER1. -/
theorem test_serialize :
    (after (exec .serialize loaded)).map State.out = some bytes1 := by decide +kernel

/-- SER10. -/
theorem test_serialize_without_packet :
    outcome (exec .serialize State.reset) = some (.noPacket, 0, 0, 0) := by decide

/-- RCK1: the checksum of SER1 is already current. -/
theorem test_recalc_writes_current :
    checksumAfter (exec .recalcChecksum { State.reset with pkt := some { packet1 with checksum := 0xFFFF } })
      = some 0x4106 := by decide +kernel

/-- SET5: the checksum of the mutated packet. -/
theorem test_recalc_after_set :
    checksumAfter (exec .recalcChecksum { State.reset with pkt := some { packet1 with frequency := 31 } })
      = some 0xE5B3 := by decide +kernel

/-! ### The mutations: SERIALIZE after SET, from the packet of SER1 -/

/-- SET1. -/
theorem test_setSrcPort :
    wireAfter (exec (.setSrcPort 81) loaded) =
      some [0x00, 0x51, 0x01, 0xBB, 0x00, 0x00, 0x00, 0x01, 0x00, 0x00, 0x00, 0x00, 0x0A, 0x00, 0x41,
        0x06, 0x00, 0x00, 0x04, 0x00] := by decide +kernel

/-- SET2. -/
theorem test_setDstPort :
    wireAfter (exec (.setDstPort 444) loaded) =
      some [0x00, 0x50, 0x01, 0xBC, 0x00, 0x00, 0x00, 0x01, 0x00, 0x00, 0x00, 0x00, 0x0A, 0x00, 0x41,
        0x06, 0x00, 0x00, 0x04, 0x00] := by decide +kernel

/-- SET3. -/
theorem test_setSeq :
    wireAfter (exec (.setSeq 2) loaded) =
      some [0x00, 0x50, 0x01, 0xBB, 0x00, 0x00, 0x00, 0x02, 0x00, 0x00, 0x00, 0x00, 0x0A, 0x00, 0x41,
        0x06, 0x00, 0x00, 0x04, 0x00] := by decide +kernel

/-- SET4. -/
theorem test_setAckNumber :
    wireAfter (exec (.setAckNumber 0xFFFFFFFF) loaded) =
      some [0x00, 0x50, 0x01, 0xBB, 0x00, 0x00, 0x00, 0x01, 0xFF, 0xFF, 0xFF, 0xFF, 0x0A, 0x00, 0x41,
        0x06, 0x00, 0x00, 0x04, 0x00] := by decide +kernel

/-- SET5: the flag bits of byte 12 are kept. -/
theorem test_setFrequency :
    wireAfter (exec (.setFrequency 31) loaded) =
      some [0x00, 0x50, 0x01, 0xBB, 0x00, 0x00, 0x00, 0x01, 0x00, 0x00, 0x00, 0x00, 0xFA, 0x00, 0x41,
        0x06, 0x00, 0x00, 0x04, 0x00] := by decide +kernel

/-- SET7: the flag only, and not `ack_number`. -/
theorem test_setAckFlag :
    wireAfter (exec (.setAckFlag true) loaded) =
      some [0x00, 0x50, 0x01, 0xBB, 0x00, 0x00, 0x00, 0x01, 0x00, 0x00, 0x00, 0x00, 0x0E, 0x00, 0x41,
        0x06, 0x00, 0x00, 0x04, 0x00] := by decide +kernel

/-- SET8. -/
theorem test_setSynFlag :
    wireAfter (exec (.setSynFlag false) loaded) =
      some [0x00, 0x50, 0x01, 0xBB, 0x00, 0x00, 0x00, 0x01, 0x00, 0x00, 0x00, 0x00, 0x08, 0x00, 0x41,
        0x06, 0x00, 0x00, 0x04, 0x00] := by decide +kernel

/-- SET9. -/
theorem test_setFinFlag :
    wireAfter (exec (.setFinFlag true) loaded) =
      some [0x00, 0x50, 0x01, 0xBB, 0x00, 0x00, 0x00, 0x01, 0x00, 0x00, 0x00, 0x00, 0x0B, 0x00, 0x41,
        0x06, 0x00, 0x00, 0x04, 0x00] := by decide +kernel

/-- SET10. -/
theorem test_setWindow :
    wireAfter (exec (.setWindow 0) loaded) =
      some [0x00, 0x50, 0x01, 0xBB, 0x00, 0x00, 0x00, 0x01, 0x00, 0x00, 0x00, 0x00, 0x0A, 0x00, 0x41,
        0x06, 0x00, 0x00, 0x00, 0x00] := by decide +kernel

/-- SET12: the payload is padded and `data_offset` follows it. -/
theorem test_setPayload :
    wireAfter (exec (.setPayload hello) loaded) =
      some [0x00, 0x50, 0x01, 0xBB, 0x00, 0x00, 0x00, 0x01, 0x00, 0x00, 0x00, 0x00, 0x0A, 0x02, 0x41,
        0x06, 0x00, 0x00, 0x04, 0x00, 0x68, 0x65, 0x6C, 0x6C, 0x6F, 0x00, 0x00, 0x00] := by
  decide +kernel

/-- SET15, SET17: the check for a packet comes first. -/
theorem test_setPayload_too_long :
    outcome (exec (.setPayload (zeros 1021)) loaded) = some (.payloadTooLong, 1020, 1021, 1020) ∧
      outcome (exec (.setPayload (zeros 1021)) State.reset) = some (.noPacket, 0, 0, 0) := by
  decide +kernel

/-! ### The checksum engine -/

/-- CHK3, under both byte orders. -/
theorem test_checksum_abc :
    chk .big [0x61, 0x62, 0x63] = 0x7F72 ∧ chk .little [0x61, 0x62, 0x63] = 0x0190 := by
  decide +kernel

/-- CHK7: no zeroing. -/
theorem test_calcChecksum_does_not_zero :
    (after (exec (.calcChecksum bytes1) State.reset)).map State.resChk = some (some 0x447C) := by
  decide +kernel

/-! ### The parser -/

/-- PAR10: trailing bytes, and the checksum of the packet's own bytes. -/
theorem test_parse_trailing_bytes :
    (after (exec (.parse (header10 ++ [0xDE, 0xAD, 0xBE, 0xEF])) State.reset)).map State.pkt =
      some (some packet1) := by decide +kernel

/-- PAR12: the checksum is checked before the payload bound. -/
theorem test_parse_checksum_first :
    outcome (exec (.parse ((bytes11.set 14 0).set 15 0)) State.reset) =
      some (.checksumMismatch, 0x895B, 0x0000, 14) := by decide +kernel

/-- V-C3: two buffers that differ in one bit and both end with OK. -/
theorem test_parse_one_bit_collision :
    ([0x01, 0x09] : List Byte).map (fun b =>
      outcome (exec (.parse [0x00, 0x50, 0x01, 0xBB, 0x00, 0x00, b, 0x55, 0x00, 0x00, 0x00, 0x00, 0x0A,
        0x00, 0x56, 0xE3, 0x00, 0x00, 0x04, 0x00]) State.reset)) =
      List.replicate 2 (some (.ok, 0, 0, 0)) := by
  decide +kernel

/-- TRM-a, and the packet of SER1, whose `syn` is 1 (S1). -/
theorem test_isTerminator :
    (after (exec .isTerminator { State.reset with pkt := some { packet1 with syn := false } })).map
        State.resTerm = some (some true) ∧
      (after (exec .isTerminator loaded)).map State.resTerm = some (some false) := by decide

/-- TRM-b: a payload of zero bytes is not empty. -/
theorem test_isTerminator_zero_payload :
    (after (exec .isTerminator
      { State.reset with pkt := some { packet1 with syn := false, payload := zeros 4 } })).map
        State.resTerm = some (some false) := by decide

/-! ### Steps -/

/-- DEC8: `CMD = 0x00000102` without a packet ends with ILLEGAL_COMMAND. -/
theorem test_step_illegal_command :
    outcome (step (presenting 0x00000102)) = some (.illegalCommand, 0, 0x00000102, 0) := by decide

/-- A command word placed for the next step runs in it (R84, P3). -/
theorem test_step_fetch_word :
    outcome (step (State.reset.withFetchWord 32 0x00000002)) = some (.noPacket, 0, 0, 0) := by decide

/-- RST2: reset takes the packet and the output away. -/
theorem test_step_reset :
    after (step { loaded with out := bytes1, outValid := true, status := .ok, events := [.reset] }) =
      some State.reset := by decide

/-- R233: a race of a CONSTRUCT accepted with `IN_LEN = 2049` may write what CONSTRUCT writes; one of a word
that names no command writes only the status registers. -/
theorem test_race_of_too_long_input :
    mayWrite { fullLines with cmd := 0x00000001, inLen := 2049 } .pktValid = true ∧
      mayWrite { fullLines with cmd := 0x00000003, inLen := 2049 } .resChk = true ∧
      mayWrite { fullLines with cmd := 0x00000101 } .pktValid = false := by decide

/-- RST1: `PKT.src_port` after reset. -/
theorem test_step_read_no_value :
    after (step (withEvent (.read .srcPort))) = none := by decide

/-- R87: SEAL is the command and then RECALC_CHECKSUM. -/
theorem test_expand_seal :
    (Line.seal (.setSrcPort 81)).expand =
      [.drive (encode (.setSrcPort 81)), .command, .drive (encode .recalcChecksum), .command] := by
  decide

/-! ### The syntax -/

/-- R86: numbers, and a number that does not fit. -/
theorem test_assemble_number :
    assemble "SET_SRC_PORT 0x0051".toList = some (.command (.setSrcPort 81)) ∧
      assemble "SET_FREQUENCY 31".toList = some (.command (.setFrequency 31)) ∧
      assemble "SET_FREQUENCY 32".toList = none := by decide +kernel

/-- R86, R87: a byte literal, and the defaults of CONSTRUCT (SER4). -/
theorem test_assemble_construct :
    (assemble "CONSTRUCT src=80, dst=443, payload=b\"hello\"".toList).map Line.expand =
      some (issue (.construct 80 443 hello 0 0 1 false false false 1024)) := by decide +kernel

/-- R87: the pseudo-commands. -/
theorem test_assemble_pseudo :
    assemble "SEAL SET_PAYLOAD x\"01 02\"".toList = some (.seal (.setPayload [0x01, 0x02])) ∧
      assemble "ROUNDTRIP".toList = some .roundtrip ∧
      assemble "SEAL SERIALIZE".toList = none := by decide +kernel

/-! ### Witnesses: encoding -/

theorem witness_OpcodeMapSelectsCommands :
    ({ fullLines with inLen := 2048 } : Inputs).inLen.toNat ≤ Params.default.maxInBytes := by decide

/-- One setting for each case of R84, and one that is legal with the longest input. -/
theorem witness_DecodeRejectsExactlyIllegalLines :
    IllegalLines Params.default { fullLines with cmd := 0x00000102 } ∧
      IllegalLines Params.default { fullLines with cmd := 0x0000001A } ∧
      IllegalLines Params.default { fullLines with cmd := 0x00000019, inLen := 2049 } ∧
      ¬ IllegalLines Params.default { fullLines with cmd := 0x00000019, inLen := 2048 } ∧
      ¬ IllegalLines Params.default { fullLines with cmd := 0x00000002, inLen := 2049 } := by
  unfold IllegalLines
  decide

theorem witness_IllegalCommandEndsWithStatus :
    (presenting 0x0000001A).events = .command :: [] ∧ (presenting 0x0000001A).inProgress = none ∧
      IllegalLines (presenting 0x0000001A).params (presenting 0x0000001A).lines ∧
      ¬ IllegalLines (presenting 0x00000019).params (presenting 0x00000019).lines := by
  unfold IllegalLines
  decide

theorem witness_DecodeOfEncode :
    (Instr.parse (zeros 2048)).WellFormed Params.default ∧
      (Instr.setFinFlag true).WellFormed Params.default := by
  decide +kernel

theorem witness_DecodedIsWellFormed :
    decode Params.default { fullLines with cmd := 0x00000005 } = .ok (.parse [0x41, 0x42]) := by decide

/-- Two settings that differ on every input SET_ACK_FLAG does not read, the other flags included, for a command
that is presented and for one that is completed. -/
theorem witness_UnreadInputsAreIgnored :
    AgreeOnReads (presenting 0x00000015).lines
        { Inputs.zero with cmd := 0x00000015, aFlags := 0b110 } ∧
      (presenting 0x00000015).lines.cmd = 0x00000015 ∧
      (presenting 0x00000015).events = .command :: [] ∧ (presenting 0x00000015).inProgress = none ∧
      ({ presenting 0x00000015 with events := [.complete] } : State).events = .complete :: [] :=
  ⟨show BitVec.getLsbD _ 2 = BitVec.getLsbD _ 2 by decide, rfl, rfl, rfl, rfl⟩

/-! ### Witnesses: steps -/

theorem witness_StepRunsDecodedCommand :
    (presenting 0x00000010).events = .command :: [] ∧ (presenting 0x00000010).inProgress = none ∧
      decode (presenting 0x00000010).params (presenting 0x00000010).lines = .ok (.setSrcPort 80) := by
  decide

theorem witness_CommandWhileBusyHasNoEffect :
    (busy .command false).events = .command :: [] ∧ (busy .accept false).events = .accept :: [] ∧
      (busy .command false).peek .busy = some 1 ∧ (busy .accept false).peek .busy = some 1 := by decide

/-- Acceptance; a step in between; a completion asked for, and one with no event left; an idle step that is no
acceptance. -/
theorem witness_BusyFromAcceptToComplete :
    ((withEvent .accept).events = .accept :: [] ∧ (withEvent .accept).peek .busy = some 0) ∧
      ((busy .command true).events = .command :: [] ∧ (busy .command true).peek .busy = some 1 ∧
        ∃ t, step (busy .command true) = .next t) ∧
      ((busy .complete false).events = .complete :: [] ∧
        (busy .complete false).peek .busy = some 1) ∧
      ({ busy .complete true with events := [] } : State).peek .busy = some 1 ∧
      ((∀ rest, (presenting 0x00000002).events ≠ .accept :: rest) ∧
        (presenting 0x00000002).peek .busy = some 0 ∧ ∃ t, step (presenting 0x00000002) = .next t) :=
  ⟨by decide, ⟨by decide, by decide, _, rfl⟩, by decide, by decide,
    (fun _ h => nomatch h), by decide, _, rfl⟩

theorem witness_AcceptThenCompleteIsOneStep :
    ∃ u, step { presenting 0x00000002 with events := [.accept, .complete] } = .next u ∧
      (presenting 0x00000002).inProgress = none := ⟨_, rfl, rfl⟩

theorem witness_RacedCommandKeepsUnwrittenRegisters :
    fullLines.inBuf.length ≤ (busy (.drive fullLines) false).params.maxInBytes ∧
      fullLines ≠ (busy (.drive fullLines) false).lines ∧
      (busy (.drive fullLines) false).inProgress =
        some { inputs := { Inputs.zero with cmd := 0x00000002 }, raced := false } ∧
      (busy .complete true).inProgress =
        some { inputs := { Inputs.zero with cmd := 0x00000002 }, raced := true } ∧
      mayWrite { Inputs.zero with cmd := 0x00000002 } .srcPort = false := by decide

/-- Each register that can hold no value, the bytes at the first offset beyond the length, while idle and
during a command that does not write the register. -/
theorem witness_ReadingNoValueFaults :
    (State.reset.pkt = none ∧ Reg.inPacket .srcPort = true ∧ Reg.srcPort ≠ .pktValid) ∧
      (loaded.pkt = some packet1 ∧ packet1.payload.length ≤ 0) ∧
      State.reset.outValid = false ∧
      ({ loaded with out := bytes1, outValid := true } : State).out.length ≤ 20 ∧
      State.reset.resChk = none ∧ State.reset.resTerm = none ∧
      (withEvent (.read .srcPort)).events = .read .srcPort :: [] ∧
      (withEvent (.read .srcPort)).inProgress = none ∧
      (busy (.read .resChk) false).inProgress =
        some { inputs := { Inputs.zero with cmd := 0x00000002 }, raced := false } ∧
      mayWrite { Inputs.zero with cmd := 0x00000002 } .resChk = false ∧
      (busy (.read .resChk) false).resChk = none := by decide

/-- SER1's packet and output are within the capacity, whatever the events and the command in progress. -/
theorem loaded_within_capacity (e : List Event) (c : Option InProgress) :
    State.WithinCapacity { loaded with out := bytes1, outValid := true, events := e, inProgress := c } := by
  refine ⟨?_, show bytes1.length ≤ 1040 by decide, Nat.zero_le _⟩
  rintro p ⟨⟩
  decide

theorem witness_ReadingReturnsTheValue :
    State.WithinCapacity { loaded with
        out := bytes1, outValid := true, events := [.read (.out 19)], inProgress := none } ∧
      ({ loaded with
        out := bytes1, outValid := true, events := [.read (.out 19)], inProgress := none } : State).peek
          (.out 19) = some 0x00 :=
  ⟨loaded_within_capacity _ _, by decide⟩

theorem witness_BusyReadOfUnwrittenRegister :
    (busy (.read .srcPort) false).events = .read .srcPort :: [] ∧
      (busy (.read .srcPort) false).WithinCapacity ∧
      mayWrite { Inputs.zero with cmd := 0x00000002 } .srcPort = false ∧
      (busy (.read .srcPort) false).peek .srcPort = some 80 := by
  refine ⟨rfl, ⟨?_, by decide, by decide⟩, by decide, by decide⟩
  rintro p ⟨⟩
  decide

/-- A read while idle, and one of a register that the command in progress may write. -/
theorem witness_ReadingHasNoSideEffect :
    (∃ t, step (withEvent (.read .status)) = .next t) ∧
      (∃ t, step (busy (.read .status) false) = .next t) := ⟨⟨_, rfl⟩, ⟨_, rfl⟩⟩

/-- The hypotheses with `STATUS = OK`, and with another status. -/
theorem witness_RoundtripPresentsOutputToParse :
    State.WithinCapacity { loaded with
        out := bytes1, outValid := true, events := [.parseOut], inProgress := none } ∧
      loaded.params.Legal ∧ ({ loaded with status := .ok } : State).status = .ok ∧
      loaded.status ≠ .ok :=
  ⟨loaded_within_capacity _ _, by decide⟩

theorem witness_OnlyReadsFault :
    (∀ r rest, (withEvent .command).events ≠ .read r :: rest) ∧
      (∀ rest, (withEvent .command).events ≠ .parseOut :: rest) := by
  constructor <;> intros <;> exact fun h => by cases h

theorem witness_ResetFromAnyState :
    (busy .reset true).events = .reset :: [] ∧ (busy .reset true).inProgress ≠ none := by decide

theorem witness_ParametersNeverChange : ∃ t, step { legacy with events := [.reset] } = .next t := ⟨_, rfl⟩

/-! ### Witnesses: the serializer and the mutations -/

/-- The longest payload that is accepted, the shortest that is not, and both sides of `MAX_IN_BYTES`. -/
theorem witness_ConstructLoadsPacket :
    (Instr.construct 1 1 (zeros 1020) 0 0 1 false false false 1024).WellFormed Params.default ∧
      (zeros 1020).length ≤ 1020 ∧
      (Instr.construct 1 1 (zeros 1021) 0 0 1 false false false 1024).WellFormed Params.default ∧
      1020 < (zeros 1021).length ∧
      (2048#16).toNat ≤ Params.default.maxInBytes ∧ Params.default.maxInBytes < (2049#16).toNat := by
  decide +kernel

/-- A command that ends with each status code. -/
theorem witness_ErrorContextOfEachStatus :
    (∃ t, exec (.parse bytes1) State.reset = .next t ∧ t.status = .ok) ∧
      (∃ t, exec (.parse (bytes1.take 19)) State.reset = .next t ∧ t.status = .tooShort) ∧
      (∃ t, exec (.parse (bytes1.set 0 1)) State.reset = .next t ∧ t.status = .checksumMismatch) ∧
      (∃ t, exec (.parse bytes11) State.reset = .next t ∧ t.status = .truncatedPayload) ∧
      (∃ t, exec .serialize State.reset = .next t ∧ t.status = .noPacket) ∧
      (∃ t, exec (.setPayload (zeros 1021)) loaded = .next t ∧ t.status = .payloadTooLong) ∧
      (∃ t, step (presenting 0x00000000) = .next t) ∧
      (Instr.parse bytes11).WellFormed Params.default :=
  ⟨⟨_, rfl, by decide +kernel⟩, ⟨_, rfl, by decide +kernel⟩, ⟨_, rfl, by decide +kernel⟩,
    ⟨_, rfl, by decide +kernel⟩, ⟨_, rfl, by decide +kernel⟩, ⟨_, rfl, by decide +kernel⟩, ⟨_, rfl⟩,
    by decide⟩

theorem witness_ConstructedChecksumCoversPacket :
    ∃ t, exec (.construct 80 443 hello 0 0 1 false false false 1024) State.reset = .next t ∧
      t.status = .ok := ⟨_, rfl, by decide +kernel⟩

theorem witness_SerializeEmitsWireForm :
    State.reset.pkt = none ∧ loaded.pkt = some packet1 ∧ packet1.payload.length ≤ 1020 ∧
      ({ packet1 with payload := zeros 1020 } : Packet).payload.length ≤ 1020 := by decide +kernel

theorem witness_CommandsWithoutPacketFail :
    needsPkt (.setPayload (zeros 1021)) = true ∧ needsPkt .isTerminator = true ∧
      State.reset.pkt = none := by decide +kernel

theorem witness_RecalcWritesZeroedChecksum : State.reset.pkt = none ∧ loaded.pkt = some packet1 := by decide

/-- A packet whose checksum is current, and one whose checksum is stale. -/
theorem witness_RecalcIsIdempotent :
    (∃ t u, exec .recalcChecksum { loaded with pkt := some { packet1 with checksum := 0 } } = .next t ∧
        exec .recalcChecksum t = .next u) ∧
      packet1.checksum = chkZ loaded.params.digestIntOrder (ser packet1) :=
  ⟨⟨_, _, rfl, rfl⟩, by decide +kernel⟩

theorem witness_SetPortsWriteOneField : State.reset.pkt = none ∧ loaded.pkt ≠ none := by decide

theorem witness_SetNumbersWriteOneField : State.reset.pkt = none ∧ loaded.pkt ≠ none := by decide

theorem witness_SetFrequencyAndFlagsWriteOneField : State.reset.pkt = none ∧ loaded.pkt ≠ none := by
  decide

/-- Without a packet, the longest payload that is accepted and the shortest that is not. -/
theorem witness_SetPayloadReplacesPayload :
    State.reset.pkt = none ∧ loaded.pkt ≠ none ∧
      (Instr.setPayload (zeros 1020)).WellFormed loaded.params ∧ (zeros 1020).length ≤ 1020 ∧
      (Instr.setPayload (zeros 1021)).WellFormed loaded.params ∧ 1020 < (zeros 1021).length := by
  decide +kernel

theorem witness_SealMakesChecksumCurrent :
    isSet (.setPayload hello) = true ∧
      ∃ t u, exec (.setPayload hello) loaded = .next t ∧ t.status = .ok ∧
        exec .recalcChecksum t = .next u := ⟨rfl, _, _, rfl, by decide +kernel, rfl⟩

/-! ### Witnesses: the checksum engine and the parser -/

theorem witness_CalcChecksumWritesResult :
    (Instr.calcChecksum []).WellFormed Params.default ∧
      (Instr.calcChecksum (zeros 2048)).WellFormed Params.default ∧
      Params.default.maxInBytes < (2049#16).toNat := by decide +kernel

theorem witness_PaddingFillsBlocks : (zeros 64).length = 64 := by decide

theorem witness_ZeroedChecksumIgnoresField : 16 ≤ (zeros 16).length ∧ 16 ≤ bytes1.length := by decide

theorem witness_ShortInputIsTooShort : (bytes1.take 19).length < 20 ∧ ([] : List Byte).length < 20 := by
  decide

/-- PAR7, of exactly 20 bytes. -/
theorem witness_WrongChecksumIsMismatch :
    (Instr.parse (bytes1.set 0 1)).WellFormed Params.default ∧ 20 ≤ (bytes1.set 0 1).length ∧
      chkZ .big (bytes1.set 0 1) ≠ be16 (byteAt (bytes1.set 0 1) 14) (byteAt (bytes1.set 0 1) 15) := by
  decide +kernel

/-- PAR11, of exactly 20 bytes. -/
theorem witness_ShortPayloadIsTruncated :
    (Instr.parse bytes11).WellFormed Params.default ∧ 20 ≤ bytes11.length ∧
      chkZ .big bytes11 = be16 (byteAt bytes11 14) (byteAt bytes11 15) ∧
      bytes11.length < 20 + 4 * (byteAt bytes11 13).toNat := by decide +kernel

/-- PAR1, with no trailing byte. -/
theorem witness_ParseLoadsPacket :
    (Instr.parse bytes1).WellFormed Params.default ∧ 20 ≤ bytes1.length ∧
      chkZ .big bytes1 = be16 (byteAt bytes1 14) (byteAt bytes1 15) ∧
      20 + 4 * (byteAt bytes1 13).toNat ≤ bytes1.length := by decide +kernel

/-- PAR10, with trailing bytes, and PAR1, without. -/
theorem witness_ParsedChecksumCoversOwnBytes :
    (∃ t, exec (.parse (header10 ++ [0xDE, 0xAD, 0xBE, 0xEF])) State.reset = .next t ∧ t.status = .ok) ∧
      (∃ t, exec (.parse bytes1) State.reset = .next t ∧ t.status = .ok) ∧
      bytes1.length = 20 + 4 * (byteAt bytes1 13).toNat :=
  ⟨⟨_, rfl, by decide +kernel⟩, ⟨_, rfl, by decide +kernel⟩, by decide⟩

/-- Two different trails of the same header, both covered by its checksum. -/
theorem witness_ParseIgnoresTrailingBytes :
    20 ≤ header10.length ∧ header10.length = 20 + 4 * (byteAt header10 13).toNat ∧
      (∃ t, exec (.parse (header10 ++ [0xDE, 0xAD, 0xBE, 0xEF])) State.reset = .next t ∧
        t.status = .ok) ∧
      (∃ t, exec (.parse (header10 ++ [0xB2, 0x9C])) State.reset = .next t ∧ t.status = .ok) :=
  ⟨by decide, by decide, ⟨_, rfl, by decide +kernel⟩, ⟨_, rfl, by decide +kernel⟩⟩

/-- Under PAD_ZERO with a length that is no multiple of 4, and under LEGACY with one that is. -/
theorem witness_ConstructSerializeParseRoundTrip :
    (∃ a b, exec (.construct 80 443 hello 0 0 1 false false false 1024) State.reset = .next a ∧
        a.status = .ok ∧ exec .serialize a = .next b ∧
        State.reset.params.unalignedPayload = .padZero) ∧
      (∃ a b, exec (.construct 80 443 (zeros 4) 0 0 1 false false false 1024) legacy = .next a ∧
        a.status = .ok ∧ exec .serialize a = .next b ∧ (zeros 4).length % 4 = 0) :=
  ⟨⟨_, _, rfl, by decide +kernel, rfl, rfl⟩, ⟨_, _, rfl, by decide +kernel, rfl, rfl⟩⟩

theorem witness_LegacyUnalignedOutputIsTruncated :
    ∃ a b, exec (.construct 80 443 hello 0 0 1 false false false 1024) legacy = .next a ∧
      a.status = .ok ∧ exec .serialize a = .next b ∧
      legacy.params.unalignedPayload = .legacy ∧ hello.length % 4 ≠ 0 :=
  ⟨_, _, rfl, by decide +kernel, rfl, rfl, by decide⟩

/-- No packet; a terminator; a packet with one flag set; a packet with a payload. -/
theorem witness_TerminatorIsBareEmptyPacket :
    State.reset.pkt = none ∧ loaded.pkt = some packet1 ∧
      (let p := { packet1 with syn := false }
       p.ack = false ∧ p.syn = false ∧ p.fin = false ∧ p.payload.length = 0) ∧
      ¬ (packet1.ack = false ∧ packet1.syn = false ∧ packet1.fin = false ∧ packet1.payload.length = 0) ∧
      (let p := { packet1 with syn := false, payload := zeros 4 }
       ¬ (p.ack = false ∧ p.syn = false ∧ p.fin = false ∧ p.payload.length = 0)) := by decide

/-! ### Witnesses: rules about every command -/

theorem witness_EveryCommandCompletes :
    ∃ t, exec .serialize loaded = .next t ∧ t.status = .ok := ⟨_, rfl, rfl⟩

theorem witness_FailureIsExact :
    ∃ t, exec (.setPayload (zeros 1021)) loaded = .next t ∧ t.status ≠ .ok :=
  ⟨_, rfl, by decide +kernel⟩

theorem witness_CommandsRaiseOnlyTheirCauses :
    (∃ t, exec .serialize State.reset = .next t ∧ t.status = .noPacket) ∧
      (∃ t, exec (.setPayload (zeros 1021)) loaded = .next t ∧ t.status = .payloadTooLong) ∧
      (∃ t, exec (.parse (bytes1.take 19)) loaded = .next t ∧ t.status = .tooShort) ∧
      (∃ t, exec (.parse (bytes1.set 0 1)) loaded = .next t ∧ t.status = .checksumMismatch) ∧
      (∃ t, exec (.parse bytes11) loaded = .next t ∧ t.status = .truncatedPayload) :=
  ⟨⟨_, rfl, by decide +kernel⟩, ⟨_, rfl, by decide +kernel⟩, ⟨_, rfl, by decide +kernel⟩,
    ⟨_, rfl, by decide +kernel⟩, ⟨_, rfl, by decide +kernel⟩⟩

/-- A command that changes each of the four. -/
theorem witness_ResultsHaveOneWriter :
    (∃ t, exec .serialize loaded = .next t ∧ t.out ≠ loaded.out) ∧
      (∃ t, exec (.calcChecksum []) loaded = .next t ∧ t.resChk ≠ loaded.resChk) ∧
      (∃ t, exec .isTerminator loaded = .next t ∧ t.resTerm ≠ loaded.resTerm) ∧
      (∃ t, exec (.setSrcPort 81) loaded = .next t ∧ t.pkt ≠ loaded.pkt) :=
  ⟨⟨_, rfl, by decide +kernel⟩, ⟨_, rfl, by decide +kernel⟩, ⟨_, rfl, by decide⟩,
    ⟨_, rfl, by decide⟩⟩

/-- A command that fails, one that gives a packet, one without a packet, and one that changes a field. -/
theorem witness_PacketFieldsHaveTheirWriters :
    (∃ t, exec .serialize State.reset = .next t ∧ t.status ≠ .ok) ∧
      (∃ t, exec (.parse bytes1) State.reset = .next t ∧ t.status = .ok) ∧
      (∃ t q, exec (.setPayload hello) loaded = .next t ∧ t.pkt = some q ∧
        q.payload ≠ packet1.payload ∧ q.dataOffset ≠ packet1.dataOffset) :=
  ⟨⟨_, rfl, by decide⟩, ⟨_, rfl, by decide +kernel⟩,
    ⟨_, packet1.assignPayload .padZero hello, rfl, by decide +kernel, by decide, by decide⟩⟩

theorem witness_CommandsKeepHostSide : ∃ t, exec (.setSrcPort 81) loaded = .next t := ⟨_, rfl⟩

/-- Two states that differ outside the parameters and `PKT`. -/
theorem witness_ResultsDependOnOperandsAndPacket :
    loaded.params = (busy .command false).params ∧ loaded.pkt = (busy .command false).pkt ∧
      (∃ t, exec .serialize loaded = .next t ∧ t.status = .ok) ∧
      (∃ t, exec .serialize (busy .command false) = .next t) :=
  ⟨rfl, rfl, ⟨_, rfl, rfl⟩, ⟨_, rfl⟩⟩

/-! ### Witnesses: the invariants -/

/-- A step of an idle block, and a step that leaves a raced command in progress. -/
theorem witness_StepsKeepDerivedOffset :
    (¬ State.CompletesRace { loaded with events := [.command] } ∧
        State.OffsetDerived { loaded with events := [.command] } ∧
        ∃ t, step { loaded with events := [.command] } = .next t) ∧
      (¬ (busy .command true).CompletesRace ∧ (busy .command true).OffsetDerived ∧
        ∃ t, step (busy .command true) = .next t) := by
  refine ⟨⟨?_, ?_, _, rfl⟩, ?_, ?_, _, rfl⟩
  · rintro ⟨⟨c, h, -⟩, -⟩; cases h
  · rintro p ⟨⟩; decide
  · rintro ⟨-, h | ⟨rest, h⟩⟩ <;> cases h
  · rintro p ⟨⟩; decide

/-- A step of an idle block, and reset while a raced command is in progress. -/
theorem witness_StepsKeepPaddedPayload :
    (¬ State.CompletesRace { loaded with events := [.command] } ∧
        State.PaddedPayload { loaded with events := [.command] } ∧
        loaded.params.unalignedPayload = .padZero ∧
        ∃ t, step { loaded with events := [.command] } = .next t) ∧
      (¬ (busy .reset true).CompletesRace ∧ (busy .reset true).PaddedPayload ∧
        ∃ t, step (busy .reset true) = .next t) := by
  refine ⟨⟨?_, ?_, rfl, _, rfl⟩, ?_, ?_, _, rfl⟩
  · rintro ⟨⟨c, h, -⟩, -⟩; cases h
  · rintro _ p ⟨⟩; decide
  · rintro ⟨-, h | ⟨rest, h⟩⟩ <;> cases h
  · rintro _ p ⟨⟩; decide

theorem witness_StepsKeepCapacity :
    State.WithinCapacity { loaded with
        out := bytes1, outValid := true, events := [.command], inProgress := none } ∧
      ∃ t, step { loaded with
        out := bytes1, outValid := true, events := [.command], inProgress := none } = .next t :=
  ⟨loaded_within_capacity _ _, ⟨_, rfl⟩⟩

end Sys2Proof.Tests
end

section
/-! SUPPORT. The obligations of 00_scope.md: a presented command is performed in one step (R5), and accepting and
then completing it comes to the same (10_state.md R28, 20_memory.md R58, 70_reset_and_hazards.md R238). -/

namespace Sys2Proof.Machine

/-- No command sees the command in progress, so it has the same outcome whether it was accepted before or is
performed at once: every command reads only the parameters and `PKT` (20_memory.md R58), and both its endings,
`State.complete` and `State.raise`, set `BUSY` to 0 (60_exceptions.md R202, R203). -/
theorem exec_inProgress (i : Instr) (c : Option InProgress) (s : State) :
    exec i { s with inProgress := c } = exec i s := by
  cases i <;> rfl

/-- Performing the lines, legal or not (30_encoding.md R84), does not see the command in progress. -/
theorem perform_inProgress (l : Inputs) (c : Option InProgress) (s : State) :
    perform l { s with inProgress := c } = perform l s := by
  cases h : decode s.params l with
  | ok i => rw [perform_ok h, perform_ok (s := { s with inProgress := c }) h, exec_inProgress]
  | error e => rw [perform_error h, perform_error (s := { s with inProgress := c }) h]; rfl

/-- With no input changed while `BUSY = 1`, an accepted command completes as its rule says (R58, R238). -/
theorem onComplete_accept (s : State) : s.accept.onComplete = perform s.lines s :=
  calc
    s.accept.onComplete = s.accept.finish ⟨s.lines, false⟩ := onComplete_busy s.accept_inProgress
    _ = perform s.lines s.accept := rfl
    _ = perform s.lines s := perform_inProgress _ _ _

/-- While `BUSY = 0`, the step that takes a presented command performs it (00_scope.md R5). -/
theorem step_command_idle {s : State} {rest : List Event} (he : s.events = .command :: rest)
    (hi : s.inProgress = none) : step s = perform s.lines { s with events := rest } :=
  (step_event he).trans (onCommand_idle (s := { s with events := rest }) hi)

/-- While `BUSY = 0`, the step that takes an acceptance accepts the command on the lines (10_state.md R28). -/
theorem step_accept_idle {s : State} {rest : List Event} (he : s.events = .accept :: rest)
    (hi : s.inProgress = none) : step s = .next (State.accept { s with events := rest }) :=
  (step_event he).trans (onAccept_idle (s := { s with events := rest }) hi)

/-- Settles O7: the step performs the lines, and legal lines run their command. -/
theorem stepRunsDecodedCommand : Obligations.StepRunsDecodedCommand := by
  intro s rest i he hi hd
  exact (step_command_idle he hi).trans (perform_ok (s := { s with events := rest }) hd)

/-- Settles O10: both sides perform the lines of `s`, which the acceptance kept. -/
theorem acceptThenCompleteIsOneStep : Obligations.AcceptThenCompleteIsOneStep := by
  intro s u rest he hi hu
  rw [step_accept_idle he hi] at hu
  cases hu
  calc
    step (State.accept { s with events := .complete :: rest })
        = (State.accept { s with events := rest }).onComplete :=
      step_event (s := State.accept { s with events := .complete :: rest }) rfl
    _ = perform s.lines { s with events := rest } := onComplete_accept _
    _ = step { s with events := .command :: rest } :=
      (step_command_idle (s := { s with events := .command :: rest }) rfl hi).symm

end Sys2Proof.Machine
end

section
/-! SUPPORT. The ways a command can end, by command (60_exceptions.md R202, R203): what it writes when it ends with
OK, in terms of its operands and of the packet before it. -/

namespace Sys2Proof.Machine

/-- The update of `PKT` by RECALC_CHECKSUM and by each SET_* but SET_PAYLOAD, which write one field
(40_serializer.md R112, R120 to R128); no other command has one. -/
def fieldUpdate (o : DigestIntOrder) : Instr → Option (Packet → Packet)
  | .recalcChecksum => some (Packet.sealed o)
  | .setSrcPort v => some fun p => { p with srcPort := v }
  | .setDstPort v => some fun p => { p with dstPort := v }
  | .setSeq v => some fun p => { p with seqNumber := v }
  | .setAckNumber v => some fun p => { p with ackNumber := v }
  | .setFrequency v => some fun p => { p with frequency := v }
  | .setAckFlag v => some fun p => { p with ack := v }
  | .setSynFlag v => some fun p => { p with syn := v }
  | .setFinFlag v => some fun p => { p with fin := v }
  | .setWindow v => some fun p => { p with windowSize := v }
  | _ => none

/-- `CommandEnds s i t`: the command `i`, performed in the state `s`, can end in the state `t`. -/
inductive CommandEnds (s : State) : Instr → State → Prop
  /-- The command fails (R203). -/
  | failed {i : Instr} (st : Status) (e a : Word) (o : Half) (ne_ok : st ≠ .ok) (ne_none : st ≠ .none) :
    CommandEnds s i (s.raise st e a o)
  /-- CONSTRUCT loads the packet it built (40_serializer.md R103). -/
  | constructed {src dst : Half} {payload : List Byte} {seq ackn : Word} {freq : BitVec 5}
      {ack syn fin : Bool} {win : Word} (fits : payload.length ≤ 1020) :
    CommandEnds s (.construct src dst payload seq ackn freq ack syn fin win)
      (s.loadPacket
        ((builtPacket s.params.unalignedPayload src dst payload seq ackn freq ack syn fin win).sealed
          s.params.digestIntOrder)).complete
  /-- PARSE loads the packet its input holds (42_parser.md R170). -/
  | parsed {input : List Byte} (whole : 20 + declaredPayload input ≤ input.length) :
    CommandEnds s (.parse input)
      (s.loadPacket ((unpack input).sealed s.params.digestIntOrder)).complete
  /-- SET_PAYLOAD replaces the payload (40_serializer.md R129). -/
  | payloadSet {payload : List Byte} {p : Packet} (hp : s.pkt = some p) (fits : payload.length ≤ 1020) :
    CommandEnds s (.setPayload payload)
      (s.loadPacket (p.assignPayload s.params.unalignedPayload payload)).complete
  /-- RECALC_CHECKSUM or another SET_* writes its field. -/
  | fieldWritten {i : Instr} {f : Packet → Packet} {p : Packet}
      (hf : fieldUpdate s.params.digestIntOrder i = some f) (hp : s.pkt = some p) :
    CommandEnds s i (s.loadPacket (f p)).complete
  /-- SERIALIZE loads `OUT` (R110). -/
  | serialized {p : Packet} (hp : s.pkt = some p) :
    CommandEnds s .serialize (s.loadOut (ser p)).complete
  /-- CALC_CHECKSUM loads `RES_CHK` (41_checksum.md R150). -/
  | checksummed {input : List Byte} (c : Half) :
    CommandEnds s (.calcChecksum input) (s.loadChk c).complete
  /-- IS_TERMINATOR loads `RES_TERM` (42_parser.md R180). -/
  | judged (b : Bool) : CommandEnds s .isTerminator (s.loadTerm b).complete

/-- A command that needs a packet fails without one, or ends as its rule says on the packet (R101). -/
theorem commandEnds_needsPacket {s : State} {i : Instr} {k : Packet → State}
    (hk : ∀ p, s.pkt = some p → CommandEnds s i (k p)) : CommandEnds s i (needsPacket s k) := by
  cases hp : s.pkt with
  | none =>
    rw [needsPacket_none hp]
    exact .failed _ _ _ _ (by decide) (by decide)
  | some p =>
    rw [needsPacket_some hp]
    exact hk p hp

/-- A command with a payload operand fails if it is too long, or ends as its rule says (R102). -/
theorem commandEnds_checkPayload {s k : State} {i : Instr} {payload : List Byte}
    (hk : payload.length ≤ 1020 → CommandEnds s i k) :
    CommandEnds s i (checkPayload payload s k) := by
  rcases Nat.lt_or_ge 1020 payload.length with long | fits
  · rw [checkPayload_tooLong long]
    exact .failed _ _ _ _ (by decide) (by decide)
  · rw [checkPayload_fits fits]
    exact hk fits

/-- A command that writes one field ends as its update says (R112, R120 to R128). -/
theorem commandEnds_mutatePacket {s : State} {i : Instr} {f : Packet → Packet}
    (hf : fieldUpdate s.params.digestIntOrder i = some f) : CommandEnds s i (mutatePacket f s) :=
  commandEnds_needsPacket fun _ hp => .fieldWritten hf hp

/-- PARSE fails at one of its three checks, or loads the packet (42_parser.md R170, R176). -/
theorem execParse_ends (input : List Byte) (s : State) :
    ∃ t, execParse input s = .next t ∧ CommandEnds s (.parse input) t := by
  refine ⟨_, rfl, ?_⟩
  split
  · exact .failed _ _ _ _ (by decide) (by decide)
  split
  · exact .failed _ _ _ _ (by decide) (by decide)
  split
  · exact .failed _ _ _ _ (by decide) (by decide)
  · next whole => exact .parsed (Nat.not_lt.mp whole)

/-- Every command completes, in one of the ways of its rule (60_exceptions.md R202, R203). -/
theorem exec_ends (i : Instr) (s : State) : ∃ t, exec i s = .next t ∧ CommandEnds s i t := by
  cases i with
  | construct => exact ⟨_, rfl, commandEnds_checkPayload .constructed⟩
  | serialize => exact ⟨_, rfl, commandEnds_needsPacket fun _ hp => .serialized hp⟩
  | calcChecksum => exact ⟨_, rfl, .checksummed _⟩
  | parse input => exact execParse_ends input s
  | isTerminator => exact ⟨_, rfl, commandEnds_needsPacket fun p _ => .judged p.isTerminator⟩
  | setPayload =>
    exact ⟨_, rfl, commandEnds_needsPacket fun _ hp => commandEnds_checkPayload (.payloadSet hp)⟩
  | recalcChecksum | setSrcPort | setDstPort | setSeq | setAckNumber | setFrequency | setAckFlag
  | setSynFlag | setFinFlag | setWindow =>
    exact ⟨_, rfl, commandEnds_mutatePacket rfl⟩

/-- What a command answers is one of the ways it can end. -/
theorem commandEnds_of_exec {i : Instr} {s t : State} (h : exec i s = .next t) : CommandEnds s i t := by
  obtain ⟨t', ht', hends⟩ := exec_ends i s
  cases ht'.symm.trans h
  exact hends

/-- A command that writes one field keeps the payload and `data_offset` (10_state.md R23, R26). -/
theorem fieldUpdate_keeps_payload {o : DigestIntOrder} {i : Instr} {f : Packet → Packet}
    (hf : fieldUpdate o i = some f) (p : Packet) :
    (f p).payload = p.payload ∧ (f p).dataOffset = p.dataOffset := by
  cases i <;> cases hf <;> exact ⟨rfl, rfl⟩

/-- A command leaves the host's side as it is, however it ends (10_state.md R35, 20_memory.md R50,
70_reset_and_hazards.md R231). -/
theorem exec_keepsHostSide {i : Instr} {s t : State} (h : exec i s = .next t) : KeepsHostSide s t := by
  obtain ⟨p, rfl⟩ | ⟨b, rfl⟩ | ⟨c, rfl⟩ | ⟨b, rfl⟩ | ⟨st, e, a, o, -, -, rfl⟩ := exec_cases h <;>
    exact ⟨rfl, rfl, rfl, rfl, rfl⟩

/-- A command leaves `BUSY` 0, however it ends (60_exceptions.md R202, R203). -/
theorem exec_inProgress_none {i : Instr} {s t : State} (h : exec i s = .next t) :
    t.inProgress = none := by
  obtain ⟨p, rfl⟩ | ⟨b, rfl⟩ | ⟨c, rfl⟩ | ⟨b, rfl⟩ | ⟨st, e, a, o, -, -, rfl⟩ := exec_cases h <;> rfl

end Sys2Proof.Machine
end

section
/-! SUPPORT. What each event does in each state of the block, said once, and a step as the event it takes (log 3,
log 12). -/

namespace Sys2Proof.Machine

/-- `EventLeads s e t`: the event `e`, taken in the state `s`, can lead to the state `t`. -/
inductive EventLeads (s : State) : Event → State → Prop
  | notAccepted {c : InProgress} {e : Event} (busy : s.inProgress = some c)
      (he : e = .command ∨ e = .accept) : EventLeads s e s
  | nothingToComplete (idle : s.inProgress = none) : EventLeads s .complete s
  | notCopied (h : s.inProgress = none → s.status ≠ .ok) : EventLeads s .parseOut s
  | performed {t : State} (idle : s.inProgress = none) (h : perform s.lines s = .next t) :
    EventLeads s .command t
  | accepted (idle : s.inProgress = none) : EventLeads s .accept s.accept
  | completed {c : InProgress} {t : State} (busy : s.inProgress = some c) (stable : c.raced = false)
      (h : perform c.inputs s = .next t) : EventLeads s .complete t
  | raced {c : InProgress} (busy : s.inProgress = some c) (raced : c.raced = true) :
    EventLeads s .complete (s.raceOutcome c.inputs)
  | driven (l : Inputs) : EventLeads s (.drive l) (s.drive l)
  | read (r : Reg) (draws : Nat) (readout : Option Word) :
    EventLeads s (.read r) { s with draws := draws, readout := readout }
  | reset : EventLeads s .reset s.applyReset
  | copied (idle : s.inProgress = none) (l : Inputs) (es : List Event) :
    EventLeads s .parseOut { s.drive l with events := es }

/-- The host's read leaves every field but the model's own two (20_memory.md R58). -/
theorem eventLeads_of_hostRead {s t : State} {r : Reg} (h : s.hostRead r = .next t) :
    EventLeads s (.read r) t := by
  obtain hr | hr | ⟨w, -, hr⟩ | hr := hostRead_cases r s <;> cases hr.symm.trans h
  · exact .read r s.draws (some w)
  · exact .read r _ _

/-- ROUNDTRIP's copy drives the lines and presents PARSE, or does nothing (30_encoding.md R87). -/
theorem eventLeads_of_onParseOut {s t : State} (h : s.onParseOut = .next t) :
    EventLeads s .parseOut t := by
  unfold State.onParseOut at h
  split at h
  · next idle _ =>
    split at h <;> cases h
    exact .copied idle _ _
  · next hno =>
    cases h
    exact .notCopied hno

/-- The command in progress completes as its rule says or as a race, if there is one (R233, R238). -/
theorem eventLeads_of_onComplete {s t : State} (h : s.onComplete = .next t) :
    EventLeads s .complete t := by
  cases hb : s.inProgress with
  | none =>
    cases (onComplete_idle hb).symm.trans h
    exact .nothingToComplete hb
  | some c =>
    rw [onComplete_busy hb, State.finish] at h
    split at h
    · next hraced =>
      cases h
      exact .raced hb hraced
    · next hstable => exact .completed hb (Bool.eq_false_of_not_eq_true hstable) h

/-- Everything an event can do. -/
theorem eventLeads_of_handle {s t : State} {e : Event} (h : s.handle e = .next t) :
    EventLeads s e t := by
  cases e with
  | command =>
    cases hb : s.inProgress with
    | none => exact .performed hb ((onCommand_idle hb).symm.trans h)
    | some c =>
      cases (onCommand_busy hb).symm.trans h
      exact .notAccepted hb (.inl rfl)
  | accept =>
    cases hb : s.inProgress with
    | none =>
      cases (onAccept_idle hb).symm.trans h
      exact .accepted hb
    | some c =>
      cases (onAccept_busy hb).symm.trans h
      exact .notAccepted hb (.inr rfl)
  | complete => exact eventLeads_of_onComplete h
  | drive l =>
    cases h
    exact .driven l
  | read r => exact eventLeads_of_hostRead h
  | reset =>
    cases h
    exact .reset
  | parseOut => exact eventLeads_of_onParseOut h

/-- The event a step takes: the oldest one, or a completion when none is left (log 12). -/
def State.nextEvent (s : State) : Event := s.events.headD .complete

/-- The state without the event a step takes. -/
def State.dropEvent (s : State) : State := { s with events := s.events.tail }

/-- A step handles its event in the state without it. -/
theorem step_eq_handle (s : State) : step s = s.dropEvent.handle s.nextEvent := by
  cases he : s.events with
  | nil =>
    have hdrop : s.dropEvent = s := by rw [State.dropEvent, he, List.tail_nil, ← he]
    rw [step_quiet he, hdrop, State.nextEvent, he]
    rfl
  | cons e rest => rw [step_event he, State.dropEvent, State.nextEvent, he]; rfl

/-- Everything a step can do. -/
theorem eventLeads_of_step {s t : State} (h : step s = .next t) :
    EventLeads s.dropEvent s.nextEvent t :=
  eventLeads_of_handle ((step_eq_handle s).symm.trans h)

theorem nextEvent_of_cons {s : State} {e : Event} {rest : List Event} (he : s.events = e :: rest) :
    s.nextEvent = e := by
  rw [State.nextEvent, he]
  rfl

/-- A step that takes the completion of a raced command is the one R233 leaves unspecified. -/
theorem completesRace_of_nextEvent {s : State} {c : InProgress} (busy : s.inProgress = some c)
    (raced : c.raced = true) (he : s.nextEvent = .complete) : s.CompletesRace := by
  refine ⟨⟨c, busy, raced⟩, ?_⟩
  cases hs : s.events with
  | nil => exact .inl rfl
  | cons e rest => exact .inr ⟨rest, by rw [← he, nextEvent_of_cons hs]⟩

/-- Performing the lines either fails on an illegal command or runs a legal one (30_encoding.md R84). -/
theorem perform_cases {l : Inputs} {s t : State} (h : perform l s = .next t) :
    t = s.illegalCommand l.cmd ∨ ∃ i, exec i s = .next t := by
  cases hd : decode s.params l with
  | ok i => exact .inr ⟨i, (perform_ok hd).symm.trans h⟩
  | error e =>
    cases (perform_error hd).symm.trans h
    exact .inl rfl

/-- Performing the lines completes, whatever they are (R84, 60_exceptions.md R202, R203). -/
theorem perform_total (l : Inputs) (s : State) : ∃ t, perform l s = .next t := by
  cases hd : decode s.params l with
  | ok i =>
    obtain ⟨t, ht, -⟩ := exec_ends i s
    exact ⟨t, (perform_ok hd).trans ht⟩
  | error e => exact ⟨_, perform_error hd⟩

/-- A command that was performed leaves `BUSY` 0 (60_exceptions.md R202, R203). -/
theorem perform_inProgress_none {l : Inputs} {s t : State} (h : perform l s = .next t) :
    t.inProgress = none := by
  obtain rfl | ⟨i, hi⟩ := perform_cases h
  · rfl
  · exact exec_inProgress_none hi

/-- Performing a command keeps the host's side (R231, 20_memory.md R50). -/
theorem perform_keepsHostSide {l : Inputs} {s t : State} (h : perform l s = .next t) :
    KeepsHostSide s t := by
  obtain rfl | ⟨i, hi⟩ := perform_cases h
  · exact ⟨rfl, rfl, rfl, rfl, rfl⟩
  · exact exec_keepsHostSide hi

/-- A race keeps the parameters and the lines, and leaves `BUSY` 0 (R233). -/
theorem raceOutcome_frame (l : Inputs) (s : State) :
    (s.raceOutcome l).params = s.params ∧ (s.raceOutcome l).lines = s.lines ∧
      (s.raceOutcome l).inProgress = none := by
  obtain ⟨-, h⟩ | ⟨op, -, h⟩ := raceOutcome_cases l s <;> rw [h]
  · exact ⟨rfl, rfl, rfl⟩
  · obtain ⟨hparams, hlines, -, hbusy⟩ := raceWrites_hostSide s.draws s.raceStatus op
    exact ⟨hparams, hlines, hbusy⟩

/-- No event changes the parameters (R231). -/
theorem EventLeads.params_eq {s t : State} {e : Event} (h : EventLeads s e t) : t.params = s.params := by
  cases h with
  | performed _ hp | completed _ _ hp =>
    obtain ⟨hparams, -⟩ := perform_keepsHostSide hp
    exact hparams
  | @raced c =>
    obtain ⟨hparams, -⟩ := raceOutcome_frame c.inputs s
    exact hparams
  | notAccepted | nothingToComplete | notCopied | accepted | driven | read | reset | copied => rfl

end Sys2Proof.Machine
end

section
/-! SUPPORT. The invariants of 10_state.md (R22, R23, R24, R30) and 20_memory.md (R50): every step keeps them. -/

namespace Sys2Proof.Machine

/-- The packet's payload fits its storage, `data_offset` counts its words, and under PAD_ZERO it fills them
(10_state.md R22, R23, R24). -/
structure Packet.WellShaped (u : UnalignedPayload) (p : Packet) : Prop where
  fits : p.payload.length ≤ 1020
  derived : p.dataOffset.toNat = (p.payload.length + 3) / 4
  padded : u = .padZero → p.payload.length = 4 * p.dataOffset.toNat

/-- A payload assigned by R102 is well shaped. -/
theorem assignPayload_wellShaped (u : UnalignedPayload) {input : List Byte} (h : input.length ≤ 1020)
    (p : Packet) : (p.assignPayload u input).WellShaped u := by
  have hoff : (p.assignPayload u input).dataOffset.toNat = (input.length + 3) / 4 := by
    simp only [Packet.assignPayload, wordsCeil, BitVec.toNat_ofNat]
    omega
  have hlen : (p.assignPayload u input).payload.length = _ := storedPayload_length u input
  refine ⟨storedPayload_fits u h, ?_, ?_⟩
  · rw [hoff, hlen]
    cases u with
    | padZero => simp only [wordsCeil]; omega
    | legacy => rfl
  · rintro rfl
    rw [hlen, hoff, wordsCeil]

/-- Sealing writes the checksum only (40_serializer.md R103). -/
theorem Packet.WellShaped.sealed {u : UnalignedPayload} {p : Packet} (h : p.WellShaped u)
    (o : DigestIntOrder) : (p.sealed o).WellShaped u :=
  ⟨h.fits, h.derived, h.padded⟩

/-- A packet parsed from a buffer that holds its declared payload is well shaped (30_encoding.md R75, R76). -/
theorem unpack_wellShaped (u : UnalignedPayload) {input : List Byte}
    (whole : 20 + declaredPayload input ≤ input.length) : (unpack input).WellShaped u := by
  have hlen : (unpack input).payload.length = 4 * (unpack input).dataOffset.toNat := by
    show ((input.drop 20).take (declaredPayload input)).length = declaredPayload input
    rw [List.length_take, List.length_drop]
    omega
  have hoff := (unpack input).dataOffset.isLt
  exact ⟨by omega, by omega, fun _ => hlen⟩

/-- The packet of `t`, if there is one, is well shaped or has its payload and `data_offset` from the packet of
`s`. -/
def PayloadFollows (s t : State) : Prop :=
  ∀ q, t.pkt = some q → q.WellShaped s.params.unalignedPayload ∨
    ∃ p, s.pkt = some p ∧ q.payload = p.payload ∧ q.dataOffset = p.dataOffset

theorem payloadFollows_of_pkt_eq {s t : State} (h : t.pkt = s.pkt) : PayloadFollows s t :=
  fun q hq => .inr ⟨q, h.symm.trans hq, rfl, rfl⟩

/-- Loading a well-shaped packet and ending the command gives a state whose payload follows. -/
theorem payloadFollows_loadPacket {s : State} {p : Packet}
    (h : p.WellShaped s.params.unalignedPayload) : PayloadFollows s (s.loadPacket p).complete := by
  rintro _ ⟨⟩
  exact .inl h

/-- Every command leaves the payload as it was or well shaped (10_state.md R26; 40_serializer.md R102). -/
theorem exec_payloadFollows {i : Instr} {s t : State} (h : exec i s = .next t) : PayloadFollows s t := by
  cases commandEnds_of_exec h with
  | constructed fits => exact payloadFollows_loadPacket ((assignPayload_wellShaped _ fits _).sealed _)
  | parsed whole => exact payloadFollows_loadPacket ((unpack_wellShaped _ whole).sealed _)
  | payloadSet _ fits => exact payloadFollows_loadPacket (assignPayload_wellShaped _ fits _)
  | fieldWritten hf hp =>
    rintro _ ⟨⟩
    exact .inr ⟨_, hp, fieldUpdate_keeps_payload hf _⟩
  | failed | serialized | checksummed | judged => exact payloadFollows_of_pkt_eq rfl

theorem perform_payloadFollows {l : Inputs} {s t : State} (h : perform l s = .next t) :
    PayloadFollows s t := by
  obtain rfl | ⟨i, hi⟩ := perform_cases h
  · exact payloadFollows_of_pkt_eq rfl
  · exact exec_payloadFollows hi

/-- Every event but the completion of a raced command leaves the payload as it was or well shaped. -/
theorem EventLeads.payloadFollows {s t : State} {e : Event} (h : EventLeads s e t)
    (hrace : ∀ c, s.inProgress = some c → c.raced = true → e ≠ .complete) : PayloadFollows s t := by
  cases h with
  | performed _ hp | completed _ _ hp => exact perform_payloadFollows hp
  | raced busy raced => exact absurd rfl (hrace _ busy raced)
  | reset => exact fun _ hq => nomatch hq
  | notAccepted | nothingToComplete | notCopied | accepted | driven | read | copied =>
    exact payloadFollows_of_pkt_eq rfl

/-- Every step but the one that completes a race leaves the payload as it was or well shaped. -/
theorem step_payloadFollows {s t : State} (hrace : ¬ s.CompletesRace) (h : step s = .next t) :
    PayloadFollows s t :=
  (eventLeads_of_step h).payloadFollows (s := s.dropEvent) fun _ busy raced he =>
    hrace (completesRace_of_nextEvent busy raced he)

/-- Settles O56: a packet whose payload follows meets R23. -/
theorem stepsKeepDerivedOffset : Obligations.StepsKeepDerivedOffset := by
  intro s t hrace hs h q hq
  obtain hshape | ⟨p, hp, hpayload, hoffset⟩ := step_payloadFollows hrace h q hq
  · exact hshape.derived
  · rw [hpayload, hoffset]
    exact hs p hp

/-- Settles O57: a packet whose payload follows meets R24, and no step changes the parameters. -/
theorem stepsKeepPaddedPayload : Obligations.StepsKeepPaddedPayload := by
  intro s t hrace hs h hpad q hq
  have hparams : t.params = s.params := (eventLeads_of_step h).params_eq
  rw [hparams] at hpad
  obtain hshape | ⟨p, hp, hpayload, hoffset⟩ := step_payloadFollows hrace h q hq
  · exact hshape.padded hpad
  · rw [hpayload, hoffset]
    exact hs hpad p hp

/-- A payload that follows one within the capacity is within it (10_state.md R22). -/
theorem PayloadFollows.fits {s t : State} (h : PayloadFollows s t)
    (hs : ∀ p, s.pkt = some p → p.payload.length ≤ 1020) :
    ∀ q, t.pkt = some q → q.payload.length ≤ 1020 := by
  intro q hq
  obtain hshape | ⟨p, hp, hpayload, -⟩ := h q hq
  · exact hshape.fits
  · rw [hpayload]
    exact hs p hp

/-- Every command leaves `OUT` within its 1040 bytes: SERIALIZE writes 20 bytes and the payload (R30,
40_serializer.md R110). -/
theorem exec_out_fits {i : Instr} {s t : State} (h : exec i s = .next t) (hs : s.WithinCapacity) :
    t.out.length ≤ 1040 := by
  obtain ⟨hpkt, hout, -⟩ := hs
  cases commandEnds_of_exec h with
  | @serialized p hp =>
    have hpayload := hpkt p hp
    simp only [State.complete_out, State.loadOut_out, ser_length]
    omega
  | failed | constructed | parsed | payloadSet | fieldWritten | checksummed | judged => exact hout

theorem perform_withinCapacity {l : Inputs} {s t : State} (h : perform l s = .next t)
    (hs : s.WithinCapacity) : t.WithinCapacity := by
  obtain rfl | ⟨i, hi⟩ := perform_cases h
  · exact hs
  · obtain ⟨hparams, hlines, -⟩ := exec_keepsHostSide hi
    have ⟨hpkt, _, hin⟩ := hs
    refine ⟨(exec_payloadFollows hi).fits hpkt, exec_out_fits hi hs, ?_⟩
    rwa [hparams, hlines]

/-- A field written over the packet, if there is one, that keeps the payload keeps it within the capacity. -/
theorem map_payload_fits {o : Option Packet} {f : Packet → Packet}
    (h : ∀ p, o = some p → (f p).payload.length ≤ 1020) :
    ∀ q, o.map f = some q → q.payload.length ≤ 1020 := by
  intro q hq
  obtain ⟨p, hp, rfl⟩ := Option.map_eq_some_iff.mp hq
  exact h p hp

/-- The free values of a race stay within the stores (70_reset_and_hazards.md R233, log 5). -/
theorem raceWrites_withinCapacity (draw : Nat) {s : State} (hs : s.WithinCapacity) (op : Opcode) :
    (raceWrites draw s op).WithinCapacity := by
  obtain ⟨hpkt, hout, hin⟩ := hs
  cases op with
  | construct | parse => exact ⟨fun _ hq => freePkt_payload_length hq, hout, hin⟩
  | serialize => exact ⟨hpkt, List.length_take_le _ _, hin⟩
  | calcChecksum | isTerminator => exact ⟨hpkt, hout, hin⟩
  | setPayload => exact ⟨map_payload_fits fun _ _ => freePacket_payload_fits draw, hout, hin⟩
  | recalcChecksum | setSrcPort | setDstPort | setSeq | setAckNumber | setFrequency | setAckFlag
  | setSynFlag | setFinFlag | setWindow => exact ⟨map_payload_fits hpkt, hout, hin⟩

theorem raceOutcome_withinCapacity (l : Inputs) {s : State} (hs : s.WithinCapacity) :
    (s.raceOutcome l).WithinCapacity := by
  have hstatus : s.raceStatus.WithinCapacity := hs
  obtain ⟨-, h⟩ | ⟨op, -, h⟩ := raceOutcome_cases l s <;> rw [h]
  · exact hstatus
  · exact raceWrites_withinCapacity _ hstatus op

/-- The host's drive leaves the bytes past the end of `IN` out (20_memory.md R50, log 17). -/
theorem drive_withinCapacity (l : Inputs) {s : State} (hs : s.WithinCapacity) :
    (s.drive l).WithinCapacity := by
  obtain ⟨hpkt, hout, -⟩ := hs
  exact ⟨hpkt, hout, drive_inBuf_length l s⟩

/-- Reset leaves nothing in `OUT` and no packet, and keeps the lines (70_reset_and_hazards.md R230). -/
theorem applyReset_withinCapacity {s : State} (hs : s.WithinCapacity) : s.applyReset.WithinCapacity := by
  obtain ⟨-, -, hin⟩ := hs
  exact ⟨fun _ hq => (nomatch hq), Nat.zero_le _, hin⟩

/-- Every event keeps the stores within their capacity. -/
theorem EventLeads.withinCapacity {s t : State} {e : Event} (h : EventLeads s e t)
    (hs : s.WithinCapacity) : t.WithinCapacity := by
  cases h with
  | performed _ hp | completed _ _ hp => exact perform_withinCapacity hp hs
  | raced => exact raceOutcome_withinCapacity _ hs
  | driven l | copied _ l => exact drive_withinCapacity l (s := s) hs
  | reset => exact applyReset_withinCapacity hs
  | notAccepted | nothingToComplete | notCopied | accepted | read => exact hs

/-- Settles O58: the event of the step keeps the capacities. -/
theorem stepsKeepCapacity : Obligations.StepsKeepCapacity :=
  fun s _ hs h => (eventLeads_of_step h).withinCapacity (s := s.dropEvent) hs

/-- Settles O59: after reset there is no packet, nothing in `OUT` or `IN`, and no command in progress. -/
theorem resetMeetsInvariants : Obligations.ResetMeetsInvariants := by
  refine ⟨?_, ?_, ⟨?_, Nat.zero_le _, Nat.zero_le _⟩, ?_, by decide⟩
  · exact fun _ hp => nomatch hp
  · exact fun _ _ hp => nomatch hp
  · exact fun _ hp => nomatch hp
  · exact fun _ hc => nomatch hc

end Sys2Proof.Machine
end

section
/-! SUPPORT. The obligations of 10_state.md on `BUSY` (R28), on the host's reads (R33, R34) and on the state after
reset (R38). -/

namespace Sys2Proof.Machine

theorem peek_busy_eq_zero {s : State} : s.peek .busy = some 0 ↔ s.inProgress = none := by
  cases h : s.inProgress <;> simp [State.peek, bitWord, h]

theorem peek_busy_eq_one {s : State} : s.peek .busy = some 1 ↔ ∃ c, s.inProgress = some c := by
  cases h : s.inProgress <;> simp [State.peek, bitWord, h]

/-- Accepting a command changes no register but `BUSY` (10_state.md R28). -/
theorem peek_accept (s : State) {r : Reg} (h : r ≠ .busy) : s.accept.peek r = s.peek r := by
  cases r with
  | busy => exact absurd rfl h
  | _ => rfl

/-- The command in progress completes, whether raced or not, and leaves `BUSY` 0 (70_reset_and_hazards.md R233,
R238). -/
theorem finish_inProgress_none (c : InProgress) (s : State) :
    ∃ t, s.finish c = .next t ∧ t.inProgress = none := by
  unfold State.finish
  split
  · obtain ⟨-, -, hidle⟩ := raceOutcome_frame c.inputs s
    exact ⟨_, rfl, hidle⟩
  · obtain ⟨t, ht⟩ := perform_total c.inputs s
    exact ⟨t, ht, perform_inProgress_none ht⟩

/-- A step that takes a completion while busy leaves the block idle, whether an event asks for it or no event is
left (R238, log 12). -/
theorem step_complete_busy {s : State} (he : s.nextEvent = .complete) (hb : s.peek .busy = some 1) :
    ∃ t, step s = .next t ∧ t.peek .busy = some 0 := by
  obtain ⟨c, hc⟩ := peek_busy_eq_one.mp hb
  obtain ⟨t, ht, hidle⟩ := finish_inProgress_none c s.dropEvent
  refine ⟨t, ?_, peek_busy_eq_zero.mpr hidle⟩
  rw [step_eq_handle, he]
  exact (onComplete_busy (s := s.dropEvent) hc).trans ht

/-- While busy, every event but a completion and reset keeps the command in progress (10_state.md R28;
70_reset_and_hazards.md R234, R235). -/
theorem EventLeads.stays_busy {s t : State} {e : Event} (h : EventLeads s e t) (hcomplete : e ≠ .complete)
    (hreset : e ≠ .reset) (hb : ∃ c, s.inProgress = some c) : ∃ c, t.inProgress = some c := by
  obtain ⟨c, hc⟩ := hb
  cases h with
  | performed idle | nothingToComplete idle | copied idle => cases idle.symm.trans hc
  | completed | raced => exact absurd rfl hcomplete
  | reset => exact absurd rfl hreset
  | driven l => exact ⟨_, by rw [State.drive_inProgress, hc, Option.map_some]⟩
  | accepted => exact ⟨_, s.accept_inProgress⟩
  | notAccepted | notCopied | read => exact ⟨c, hc⟩

/-- While idle, every event but an acceptance leaves the block idle (10_state.md R28). -/
theorem EventLeads.stays_idle {s t : State} {e : Event} (h : EventLeads s e t) (haccept : e ≠ .accept)
    (hi : s.inProgress = none) : t.inProgress = none := by
  cases h with
  | performed _ hp | completed _ _ hp => exact perform_inProgress_none hp
  | raced busy | notAccepted busy => cases busy.symm.trans hi
  | driven l | copied _ l => rw [State.drive_inProgress, hi, Option.map_none]
  | accepted => exact absurd rfl haccept
  | reset => rfl
  | nothingToComplete | notCopied | read => exact hi

/-- When the oldest event is no acceptance, the step takes no acceptance. -/
theorem nextEvent_ne_accept {s : State} (h : ∀ rest, s.events ≠ .accept :: rest) :
    s.nextEvent ≠ .accept := by
  cases he : s.events with
  | nil => simp [State.nextEvent, he]
  | cons e rest =>
    rw [nextEvent_of_cons he]
    rintro rfl
    exact h rest he

/-- Settles O9: `BUSY` is whether a command is in progress, which each event starts, keeps or ends. -/
theorem busyFromAcceptToComplete : Obligations.BusyFromAcceptToComplete := by
  refine ⟨?_, ?_, ?_, ?_, ?_⟩
  · intro s rest he hi
    exact ⟨_, step_accept_idle he (peek_busy_eq_zero.mp hi), rfl,
      fun _ hr => peek_accept { s with events := rest } hr⟩
  · intro s t e rest he hcomplete hreset hb h
    have hleads := eventLeads_of_step h
    rw [nextEvent_of_cons he] at hleads
    exact peek_busy_eq_one.mpr (hleads.stays_busy hcomplete hreset (peek_busy_eq_one.mp hb))
  · exact fun s rest he hb => step_complete_busy (nextEvent_of_cons he) hb
  · exact fun s he hb => step_complete_busy (by rw [State.nextEvent, he]; rfl) hb
  · intro s t he hi h
    exact peek_busy_eq_zero.mpr
      ((eventLeads_of_step h).stays_idle (s := s.dropEvent) (nextEvent_ne_accept he)
        (peek_busy_eq_zero.mp hi))

/-- Without a packet no field of `PKT` holds a value (10_state.md R21, R33). -/
theorem peek_inPacket_none {s : State} (hpkt : s.pkt = none) {r : Reg} (hr : r.inPacket = true)
    (hne : r ≠ .pktValid) : s.peek r = none := by
  cases r with
  | pktValid => exact absurd rfl hne
  | srcPort | dstPort | seqNumber | ackNumber | frequency | ack | syn | fin | dataOffset | checksum
  | windowSize | payloadLen | payload => simp [State.peek, hpkt]
  | status | busy | errExpected | errActual | errOffset | out | outLen | outValid | resChk | chkValid
  | resTerm | termValid => cases hr

/-- `OUT` holds no value at or beyond `OUT_LEN`, nor while `OUT_VALID = 0` (R30, R33). -/
theorem peek_out_none {s : State} {i : Nat} (h : s.outValid = false ∨ s.out.length ≤ i) :
    s.peek (.out i) = none := by
  obtain hvalid | hlen := h
  · simp [State.peek, hvalid]
  · simp [State.peek, List.getElem?_eq_none hlen]

/-- The payload storage holds no value at or beyond `payload_len` (R22, R33). -/
theorem peek_payload_none {s : State} {p : Packet} {i : Nat} (hp : s.pkt = some p)
    (h : p.payload.length ≤ i) : s.peek (.payload i) = none := by
  simp [State.peek, hp, List.getElem?_eq_none h]

/-- A read of a register that holds no value faults, unless a command in progress may write it (R33;
70_reset_and_hazards.md R236). -/
theorem hostRead_noValue {s : State} {r : Reg}
    (hw : ∀ c, s.inProgress = some c → mayWrite c.inputs r = false) (hnone : s.peek r = none) :
    s.hostRead r = .fault (.noValue r) ∨ s.hostRead r = .fault (.noSuchByte r) := by
  unfold State.hostRead
  split
  · left
    cases hc : s.inProgress with
    | none => simp only [hnone]
    | some c => simp [hnone, hw c hc]
  · exact .inr rfl

/-- Settles O12: each of the registers named holds no value, so its read faults. -/
theorem readingNoValueFaults : Obligations.ReadingNoValueFaults := by
  intro s rest r he hw hcases
  have hnone : s.peek r = none := by
    obtain ⟨hpkt, hr, hne⟩ | ⟨p, i, hp, rfl, hi⟩ | ⟨i, rfl, hi⟩ | ⟨rfl, hchk⟩ | ⟨rfl, hterm⟩ := hcases
    · exact peek_inPacket_none hpkt hr hne
    · exact peek_payload_none hp hi
    · exact peek_out_none hi
    · simp [State.peek, hchk]
    · simp [State.peek, hterm]
  rw [step_event he]
  exact hostRead_noValue (s := { s with events := rest }) hw hnone

/-- A byte that holds a value is one of its store, which is within its capacity (10_state.md R22, R30, log 18). -/
theorem isPresent_of_peek {s : State} {r : Reg} {w : Word} (hs : s.WithinCapacity)
    (h : s.peek r = some w) : r.isPresent = true := by
  obtain ⟨hpkt, hout, -⟩ := hs
  cases r with
  | payload i =>
    cases hp : s.pkt with
    | none => simp [State.peek, hp] at h
    | some p =>
      have hi : i < p.payload.length := by
        by_contra hi
        cases (peek_payload_none hp (Nat.not_lt.mp hi)).symm.trans h
      have := hpkt p hp
      exact decide_eq_true (by omega)
  | out i =>
    have hi : i < s.out.length := by
      by_contra hi
      cases (peek_out_none (.inr (Nat.not_lt.mp hi))).symm.trans h
    exact decide_eq_true (by omega)
  | _ => rfl

/-- While idle, a read of a register that exists and holds a value returns it (R34). -/
theorem hostRead_value {s : State} {r : Reg} {w : Word} (hr : r.isPresent = true)
    (hi : s.inProgress = none) (h : s.peek r = some w) :
    s.hostRead r = .next { s with readout := some w } := by
  simp [State.hostRead, hr, hi, h]

/-- Settles O13: within the capacities, a register that holds a value is present, and its read returns it. -/
theorem readingReturnsTheValue : Obligations.ReadingReturnsTheValue := by
  intro s rest r w he hi hs h
  exact ⟨_, (step_event he).trans
    (hostRead_value (s := { s with events := rest }) (isPresent_of_peek hs h) hi h), rfl⟩

/-- Settles O18: after reset every valid bit is 0, so what it guards holds no value. -/
theorem resetValues : Obligations.ResetValues := by
  refine ⟨rfl, rfl, rfl, rfl, rfl, rfl, rfl, rfl, rfl, rfl, ?_, ?_, rfl, rfl⟩
  · exact fun _ => peek_inPacket_none rfl
  · exact fun _ => peek_out_none (.inl rfl)

end Sys2Proof.Machine
end

section
/-! SUPPORT. The obligations of 10_state.md on every command: how it ends (R29), and who writes `PKT`, `OUT`,
`RES_CHK`, `RES_TERM` and the host's side (R26, R30, R31, R32, R35). -/

namespace Sys2Proof.Machine

/-- Settles O49: a command ends with OK and the error registers 0, or with the code of a failure. -/
theorem everyCommandCompletes : Obligations.EveryCommandCompletes := by
  intro i s
  obtain ⟨t, h, -⟩ := exec_ends i s
  refine ⟨t, h, peek_busy_eq_zero.mpr (exec_inProgress_none h), ?_⟩
  obtain ⟨p, rfl⟩ | ⟨b, rfl⟩ | ⟨c, rfl⟩ | ⟨b, rfl⟩ | ⟨st, e, a, o, hok, hnone, rfl⟩ := exec_cases h
  case inr.inr.inr.inr => exact ⟨hnone, fun hst => absurd hst hok⟩
  all_goals exact ⟨by simp, fun _ => ⟨rfl, rfl, rfl⟩⟩

/-- Settles O54, for both ways a command can end. -/
theorem commandsKeepHostSide : Obligations.CommandsKeepHostSide :=
  fun _ _ _ h => exec_keepsHostSide h

/-- A command that writes one field of `PKT` writes no result (10_state.md R26). -/
theorem fieldUpdate_writes_no_result {o : DigestIntOrder} {i : Instr} {f : Packet → Packet}
    (hf : fieldUpdate o i = some f) : i ≠ .serialize ∧ i ≠ .isTerminator ∧ i.opcode ≠ .calcChecksum := by
  cases i <;> cases hf <;> simp [Instr.opcode]

/-- Settles O52, by the ways a command can end: each writes one of `PKT` and the three results at most. -/
theorem resultsHaveOneWriter : Obligations.ResultsHaveOneWriter := by
  intro i s t h
  cases commandEnds_of_exec h with
  | failed => simp
  | constructed | parsed | payloadSet => simp [Instr.opcode]
  | fieldWritten hf => simp [fieldUpdate_writes_no_result hf]
  | serialized | checksummed | judged => simp [Instr.opcode]

/-- `FieldsByWriter i p q`: each field of the packet that differs between `p` and `q` is one that the command `i`
writes, if `i` is no CONSTRUCT and no PARSE (10_state.md R26). -/
def FieldsByWriter (i : Instr) (p q : Packet) : Prop :=
  (q.srcPort ≠ p.srcPort → i.opcode = .setSrcPort) ∧
    (q.dstPort ≠ p.dstPort → i.opcode = .setDstPort) ∧
    (q.seqNumber ≠ p.seqNumber → i.opcode = .setSeq) ∧
    (q.ackNumber ≠ p.ackNumber → i.opcode = .setAckNumber) ∧
    (q.frequency ≠ p.frequency → i.opcode = .setFrequency) ∧
    (q.ack ≠ p.ack → i.opcode = .setAckFlag) ∧ (q.syn ≠ p.syn → i.opcode = .setSynFlag) ∧
    (q.fin ≠ p.fin → i.opcode = .setFinFlag) ∧
    (q.windowSize ≠ p.windowSize → i.opcode = .setWindow) ∧
    (q.payload ≠ p.payload → i.opcode = .setPayload) ∧
    (q.dataOffset ≠ p.dataOffset → i.opcode = .setPayload) ∧
    (q.checksum ≠ p.checksum → i.opcode = .recalcChecksum)

theorem FieldsByWriter.refl (i : Instr) (p : Packet) : FieldsByWriter i p p := by
  simp [FieldsByWriter]

/-- A command that writes one field is the writer of the field it changes. -/
theorem fieldUpdate_fieldsByWriter {o : DigestIntOrder} {i : Instr} {f : Packet → Packet}
    (hf : fieldUpdate o i = some f) (p : Packet) : FieldsByWriter i p (f p) := by
  cases i <;> cases hf <;> simp [FieldsByWriter, Instr.opcode, Packet.sealed]

theorem assignPayload_fieldsByWriter (payload : List Byte) (u : UnalignedPayload) (p : Packet) :
    FieldsByWriter (.setPayload payload) p (p.assignPayload u payload) := by
  simp [FieldsByWriter, Instr.opcode, Packet.assignPayload]

/-- A command that leaves `PKT` as it is makes no packet and changes no field. -/
theorem fieldsByWriter_of_pkt_eq {i : Instr} {s t : State} (h : t.pkt = s.pkt) :
    (s.pkt = none → t.pkt = none) ∧
      ∀ p, s.pkt = some p → ∃ q, t.pkt = some q ∧ FieldsByWriter i p q :=
  ⟨h.trans, fun p hp => ⟨p, h.trans hp, .refl i p⟩⟩

/-- A command that loads an update of the packet there is makes no packet. -/
theorem fieldsByWriter_loadPacket {i : Instr} {s : State} {p q : Packet} (hp : s.pkt = some p)
    (hq : FieldsByWriter i p q) :
    (s.pkt = none → (s.loadPacket q).complete.pkt = none) ∧
      ∀ p', s.pkt = some p' → ∃ q', (s.loadPacket q).complete.pkt = some q' ∧ FieldsByWriter i p' q' := by
  refine ⟨fun hnone => ?_, fun p' hp' => ⟨q, rfl, ?_⟩⟩
  · cases hp.symm.trans hnone
  · cases hp.symm.trans hp'
    exact hq

/-- A command that does not end with OK leaves `PKT` as it is (60_exceptions.md R203). -/
theorem pkt_eq_of_not_ok {i : Instr} {s t : State} (h : exec i s = .next t) (hst : t.status ≠ .ok) :
    t.pkt = s.pkt := by
  obtain ⟨p, rfl⟩ | ⟨b, rfl⟩ | ⟨c, rfl⟩ | ⟨b, rfl⟩ | ⟨st, e, a, o, -, -, rfl⟩ := exec_cases h
  case inr.inr.inr.inr => rfl
  all_goals exact absurd rfl hst

/-- CONSTRUCT and PARSE ending with OK leave a packet (10_state.md R26). -/
theorem pkt_ne_none_of_ok {i : Instr} {s t : State} (h : exec i s = .next t)
    (hi : i.opcode = .construct ∨ i.opcode = .parse) (hst : t.status = .ok) : t.pkt ≠ none := by
  cases commandEnds_of_exec h with
  | failed _ _ _ _ ne_ok => exact absurd hst ne_ok
  | constructed | parsed | payloadSet | fieldWritten => exact Option.some_ne_none _
  | serialized | checksummed | judged => simp [Instr.opcode] at hi

/-- Every other command makes no packet and changes its own fields only (10_state.md R26). -/
theorem exec_fieldsByWriter {i : Instr} {s t : State} (h : exec i s = .next t)
    (hconstruct : i.opcode ≠ .construct) (hparse : i.opcode ≠ .parse) :
    (s.pkt = none → t.pkt = none) ∧
      ∀ p, s.pkt = some p → ∃ q, t.pkt = some q ∧ FieldsByWriter i p q := by
  cases commandEnds_of_exec h with
  | constructed => exact absurd rfl hconstruct
  | parsed => exact absurd rfl hparse
  | payloadSet hp => exact fieldsByWriter_loadPacket hp (assignPayload_fieldsByWriter _ _ _)
  | fieldWritten hf hp => exact fieldsByWriter_loadPacket hp (fieldUpdate_fieldsByWriter hf _)
  | failed | serialized | checksummed | judged => exact fieldsByWriter_of_pkt_eq rfl

/-- Settles O53, a part for each of its clauses. -/
theorem packetFieldsHaveTheirWriters : Obligations.PacketFieldsHaveTheirWriters :=
  fun _ _ _ h => ⟨pkt_eq_of_not_ok h, pkt_ne_none_of_ok h, exec_fieldsByWriter h⟩

end Sys2Proof.Machine
end

section
/-! SUPPORT. The obligations of 20_memory.md on the host's reads and on what a command reads (R58). -/

namespace Sys2Proof.Machine

/-- No register is held in the two fields a host's read writes (20_memory.md R58, log 5, log 6). -/
theorem peek_readout (s : State) (draws : Nat) (readout : Option Word) (r : Reg) :
    State.peek { s with draws := draws, readout := readout } r = s.peek r := by
  cases r <;> rfl

/-- A read that completes writes the model's own two fields only (R58). -/
theorem hostRead_frame {s t : State} {r : Reg} (h : s.hostRead r = .next t) :
    ∃ draws readout, t = { s with draws := draws, readout := readout } := by
  obtain hr | hr | ⟨w, -, hr⟩ | hr := hostRead_cases r s <;> cases hr.symm.trans h
  · exact ⟨s.draws, some w, rfl⟩
  · exact ⟨_, _, rfl⟩

/-- Settles O15: the read's two fields hold no register. -/
theorem readingHasNoSideEffect : Obligations.ReadingHasNoSideEffect := by
  intro s t rest r he h
  rw [step_event he] at h
  obtain ⟨draws, readout, rfl⟩ := hostRead_frame h
  exact ⟨peek_readout { s with events := rest } draws readout, rfl, rfl, rfl⟩

/-- `SameEnding s s' i t t'`: the command `i` ends in `t` from `s` and in `t'` from `s'` in the same way, with
the same status and the same values written. -/
inductive SameEnding (s s' : State) : Instr → State → State → Prop
  /-- The command fails with the same context (60_exceptions.md R203); CALC_CHECKSUM never fails. -/
  | failed {i : Instr} (st : Status) (e a : Word) (o : Half) (ne_ok : st ≠ .ok)
      (hi : i.opcode ≠ .calcChecksum) :
    SameEnding s s' i (s.raise st e a o) (s'.raise st e a o)
  /-- The command loads the same packet, and is none of the three that write a result register
  (10_state.md R26). -/
  | packetLoaded {i : Instr} (p : Packet)
      (hi : i ≠ .serialize ∧ i ≠ .isTerminator ∧ i.opcode ≠ .calcChecksum) :
    SameEnding s s' i (s.loadPacket p).complete (s'.loadPacket p).complete
  /-- SERIALIZE loads the same bytes into `OUT` (40_serializer.md R110). -/
  | serialized (b : List Byte) :
    SameEnding s s' .serialize (s.loadOut b).complete (s'.loadOut b).complete
  /-- CALC_CHECKSUM loads the same `RES_CHK` (41_checksum.md R150). -/
  | checksummed {input : List Byte} (c : Half) :
    SameEnding s s' (.calcChecksum input) (s.loadChk c).complete (s'.loadChk c).complete
  /-- IS_TERMINATOR loads the same `RES_TERM` (42_parser.md R180). -/
  | judged (b : Bool) :
    SameEnding s s' .isTerminator (s.loadTerm b).complete (s'.loadTerm b).complete

section
variable {s s' : State} {i : Instr}

/-- The check for a packet decides alike on the same `PKT` (40_serializer.md R101). -/
theorem sameEnding_needsPacket {k k' : Packet → State} (hpkt : s.pkt = s'.pkt)
    (hi : i.opcode ≠ .calcChecksum) (hk : ∀ p, SameEnding s s' i (k p) (k' p)) :
    SameEnding s s' i (needsPacket s k) (needsPacket s' k') := by
  cases hp : s'.pkt with
  | none =>
    rw [needsPacket_none hp, needsPacket_none (hpkt.trans hp)]
    exact .failed _ _ _ _ (by decide) hi
  | some p =>
    rw [needsPacket_some hp, needsPacket_some (hpkt.trans hp)]
    exact hk p

/-- The length check decides alike on the same operand (R102). -/
theorem sameEnding_checkPayload {k k' : State} {payload : List Byte} (hi : i.opcode ≠ .calcChecksum)
    (hk : SameEnding s s' i k k') :
    SameEnding s s' i (checkPayload payload s k) (checkPayload payload s' k') := by
  rcases Nat.lt_or_ge 1020 payload.length with long | fits
  · rw [checkPayload_tooLong long, checkPayload_tooLong long]
    exact .failed _ _ _ _ (by decide) hi
  · rw [checkPayload_fits fits, checkPayload_fits fits]
    exact hk

/-- A command that writes one field writes the same one under the same parameters (R112, R120 to R128). -/
theorem sameEnding_mutatePacket {f f' : Packet → Packet} (hparams : s.params = s'.params)
    (hpkt : s.pkt = s'.pkt) (hf : fieldUpdate s.params.digestIntOrder i = some f)
    (hf' : fieldUpdate s'.params.digestIntOrder i = some f') :
    SameEnding s s' i (mutatePacket f s) (mutatePacket f' s') := by
  have ⟨hser, hterm, hchk⟩ := fieldUpdate_writes_no_result hf
  rw [hparams] at hf
  cases hf.symm.trans hf'
  exact sameEnding_needsPacket hpkt hchk fun p => .packetLoaded (f p) ⟨hser, hterm, hchk⟩

end

/-- PARSE's checks and the packet it rebuilds depend on its input and the parameters (42_parser.md R170, R176). -/
theorem execParse_sameEnding {s s' : State} (hparams : s.params = s'.params) (input : List Byte) :
    ∃ t t', execParse input s = .next t ∧ execParse input s' = .next t' ∧
      SameEnding s s' (.parse input) t t' := by
  refine ⟨_, _, rfl, rfl, ?_⟩
  rw [hparams]
  split
  · exact .failed _ _ _ _ (by decide) nofun
  split
  · exact .failed _ _ _ _ (by decide) nofun
  split
  · exact .failed _ _ _ _ (by decide) nofun
  · exact .packetLoaded _ ⟨nofun, nofun, nofun⟩

/-- Every command ends in the same way from two states with the same parameters and the same `PKT`
(20_memory.md R58). -/
theorem exec_sameEnding {s s' : State} (hparams : s.params = s'.params) (hpkt : s.pkt = s'.pkt)
    (i : Instr) : ∃ t t', exec i s = .next t ∧ exec i s' = .next t' ∧ SameEnding s s' i t t' := by
  cases i with
  | construct =>
    refine ⟨_, _, rfl, rfl, sameEnding_checkPayload nofun ?_⟩
    rw [hparams]
    exact .packetLoaded _ ⟨nofun, nofun, nofun⟩
  | serialize =>
    exact ⟨_, _, rfl, rfl, sameEnding_needsPacket hpkt nofun fun p => .serialized (ser p)⟩
  | calcChecksum =>
    refine ⟨_, _, rfl, rfl, ?_⟩
    rw [hparams]
    exact .checksummed _
  | parse input => exact execParse_sameEnding hparams input
  | isTerminator =>
    exact ⟨_, _, rfl, rfl, sameEnding_needsPacket hpkt nofun fun p => .judged p.isTerminator⟩
  | setPayload =>
    refine ⟨_, _, rfl, rfl, sameEnding_needsPacket hpkt nofun fun p => sameEnding_checkPayload nofun ?_⟩
    rw [hparams]
    exact .packetLoaded _ ⟨nofun, nofun, nofun⟩
  | recalcChecksum | setSrcPort | setDstPort | setSeq | setAckNumber | setFrequency | setAckFlag
  | setSynFlag | setFinFlag | setWindow =>
    exact ⟨_, _, rfl, rfl, sameEnding_mutatePacket hparams hpkt rfl rfl⟩

/-- Settles O55, by the ways a command can end alike in both states. -/
theorem resultsDependOnOperandsAndPacket : Obligations.ResultsDependOnOperandsAndPacket := by
  intro i s s' t t' hparams hpkt h h'
  obtain ⟨u, u', hu, hu', hends⟩ := exec_sameEnding hparams hpkt i
  cases hu.symm.trans h
  cases hu'.symm.trans h'
  cases hends with
  | failed st e a o ne_ok hi => simp [hpkt, ne_ok, hi]
  | packetLoaded p hi => simp [hi]
  | serialized | checksummed | judged => simp [hpkt, Instr.opcode]

end Sys2Proof.Machine
end

section
/-! SUPPORT. The decoder by the command that the word on `CMD` names (30_encoding.md R81, R82, R84), and the
obligations of 30_encoding.md on the decoder and the encoder. -/

namespace Sys2Proof

open Machine

/-- A word is its reserved bits and its `OPC` (R81). -/
theorem cmd_fields_toNat (cmd : Word) :
    (cmd.extractLsb 31 8).toNat = cmd.toNat / 256 ∧ (cmd.extractLsb 7 0).toNat = cmd.toNat % 256 := by
  have := cmd.isLt
  simp only [toNat_field]
  omega

/-- The reserved bits are 0 in the words below 256 (R81). -/
theorem cmd_reserved_eq_zero_iff {cmd : Word} : cmd.extractLsb 31 8 = 0 ↔ cmd.toNat / 256 = 0 := by
  rw [← (cmd_fields_toNat cmd).1]
  exact BitVec.toNat_inj.symm

/-- The values of `OPC` that select no command (R82). -/
theorem Opcode.lookup_eq_none_iff {n : Nat} : Opcode.lookup n = none ↔ n ∉ assignedOpcodes := by
  constructor
  · have assigned : ∀ m ∈ assignedOpcodes, Opcode.lookup m ≠ none := by decide
    exact fun h hn => assigned n hn h
  · intro h
    cases hop : Opcode.lookup n with
    | none => rfl
    | some op =>
      refine absurd ?_ h
      rw [Opcode.lookup_some hop]
      cases op <;> decide

/-- The word that names a command is its opcode zero-extended (R81, R82). -/
theorem Opcode.ofWord_eq_some_iff {cmd : Word} {op : Opcode} :
    Opcode.ofWord cmd = some op ↔ cmd = op.toByte.setWidth 32 := by
  refine ⟨fun h => ?_, fun h => h ▸ op.ofWord_toByte⟩
  have h0 : cmd.extractLsb 31 8 = 0 := by
    by_contra h0
    cases (Opcode.ofWord_reserved h0).symm.trans h
  have hop := Opcode.lookup_some ((Opcode.ofWord_of_lookup h0).symm.trans h)
  obtain ⟨-, hopc⟩ := cmd_fields_toNat cmd
  have hres := cmd_reserved_eq_zero_iff.mp h0
  apply BitVec.eq_of_toNat_eq
  rw [BitVec.toNat_setWidth_of_le (by decide)]
  omega

/-- The words that name no command (R84 cases 1 and 2). -/
theorem Opcode.ofWord_eq_none_iff {cmd : Word} :
    Opcode.ofWord cmd = none ↔ cmd.toNat / 256 ≠ 0 ∨ cmd.toNat % 256 ∉ assignedOpcodes := by
  by_cases h0 : cmd.extractLsb 31 8 = 0
  · rw [Opcode.ofWord_of_lookup h0, Opcode.lookup_eq_none_iff, (cmd_fields_toNat cmd).2]
    simp [cmd_reserved_eq_zero_iff.mp h0]
  · simp [Opcode.ofWord_reserved h0, mt cmd_reserved_eq_zero_iff.mpr h0]

/-- A word that names no command is rejected, whatever the other lines are (R84 cases 1 and 2). -/
theorem decode_ofWord_none {p : Params} {l : Inputs} (h : Opcode.ofWord l.cmd = none) :
    decode p l =
      .error (if l.cmd.extractLsb 31 8 = 0 then .unassignedOpcode else .reservedBits) := by
  split
  · next h0 => exact decode_unassigned h0 ((Opcode.ofWord_of_lookup h0).symm.trans h)
  · next h0 => exact decode_reserved h0

/-- A word that names a command decodes to it with its operands, unless it reads a too long `IN` (R84
case 3). -/
theorem decode_ofWord_some {p : Params} {l : Inputs} {op : Opcode} (h : Opcode.ofWord l.cmd = some op) :
    decode p l =
      if op.readsIn ∧ p.maxInBytes < l.inLen.toNat then .error .inputTooLong
      else .ok (op.operands l) := by
  obtain ⟨h0, hopc⟩ := op.word_fields
  rw [← Opcode.ofWord_eq_some_iff.mp h] at h0 hopc
  have hlookup : Opcode.lookup (l.cmd.extractLsb 7 0).toNat = some op := by
    rw [hopc, Opcode.lookup_toByte]
  split
  · next hr => exact decode_tooLong h0 hlookup hr
  · next hr => exact decode_ok h0 hlookup hr

/-- A word that names a command decodes to it with the inputs it reads, if `IN_LEN` fits `IN` (R82). -/
theorem decode_withCmd {p : Params} {l : Inputs} (fits : l.inLen.toNat ≤ p.maxInBytes) (op : Opcode)
    {cmd : Word} (h : Opcode.ofWord cmd = some op) :
    decode p { l with cmd := cmd } = .ok (op.operands l) := by
  rw [decode_ofWord_some (l := { l with cmd := cmd }) h, if_neg fun hlong => Nat.not_lt.mpr fits hlong.2]
  cases op <;> rfl

/-- Settles O1: each of the sixteen words names its command. -/
theorem opcodeMapSelectsCommands : Obligations.OpcodeMapSelectsCommands := by
  intro p l fits
  have selects := @decode_withCmd p l fits
  exact ⟨selects .construct rfl, selects .serialize rfl, selects .calcChecksum rfl,
    selects .recalcChecksum rfl, selects .parse rfl, selects .isTerminator rfl, selects .setSrcPort rfl,
    selects .setDstPort rfl, selects .setSeq rfl, selects .setAckNumber rfl, selects .setFrequency rfl,
    selects .setAckFlag rfl, selects .setSynFlag rfl, selects .setFinFlag rfl, selects .setWindow rfl,
    selects .setPayload rfl⟩

/-- Lines whose word names no command are illegal (R84 cases 1 and 2). -/
theorem illegalLines_of_ofWord_none {p : Params} {l : Inputs} (h : Opcode.ofWord l.cmd = none) :
    IllegalLines p l := by
  obtain hres | hopc := Opcode.ofWord_eq_none_iff.mp h
  · exact .inl hres
  · exact .inr (.inl hopc)

/-- Lines whose word names a command are illegal if it reads a too long `IN` (R84 case 3). -/
theorem illegalLines_iff_of_ofWord_some {p : Params} {l : Inputs} {op : Opcode}
    (h : Opcode.ofWord l.cmd = some op) :
    IllegalLines p l ↔ op.readsIn = true ∧ p.maxInBytes < l.inLen.toNat := by
  rw [IllegalLines, Opcode.ofWord_eq_some_iff.mp h]
  cases op <;> simp [Opcode.toByte, Opcode.readsIn, assignedOpcodes]

/-- The decoder's answer on illegal and on legal lines (R84). -/
theorem decode_cases (p : Params) (l : Inputs) :
    (IllegalLines p l ∧ ∃ e, decode p l = .error e) ∨
      (¬ IllegalLines p l ∧ ∃ i, decode p l = .ok i) := by
  cases h : Opcode.ofWord l.cmd with
  | none => exact .inl ⟨illegalLines_of_ofWord_none h, _, decode_ofWord_none h⟩
  | some op =>
    rw [illegalLines_iff_of_ofWord_some h, decode_ofWord_some h]
    split
    · next hr => exact .inl ⟨hr, _, rfl⟩
    · next hr => exact .inr ⟨hr, _, rfl⟩

/-- Settles O2: the two answers of the decoder exclude each other. -/
theorem decodeRejectsExactlyIllegalLines : Obligations.DecodeRejectsExactlyIllegalLines := by
  intro p l
  obtain ⟨hill, herr⟩ | ⟨hleg, hok⟩ := decode_cases p l
  · exact ⟨fun _ => herr, absurd hill⟩
  · exact ⟨fun hill => absurd hill hleg, fun _ => hok⟩

/-- No register is held on the lines or in the events to come (10_state.md R35, log 3). -/
theorem Machine.peek_lines_events (s : State) (l : Inputs) (es : List Event) (r : Reg) :
    State.peek { s with lines := l, events := es } r = s.peek r := by
  cases r <;> rfl

/-- A failure ends with the code of its status and its error context, and changes nothing else
(60_exceptions.md R203). -/
theorem Machine.raise_failsWith (st : Status) (e a : Word) (o : Half) (s : State) :
    FailsWith (st.code.setWidth 32) e a (o.setWidth 32) s (s.raise st e a o) :=
  ⟨⟨rfl, rfl, rfl, rfl, rfl⟩, fun _ _ hstatus hbusy => peek_raise st e a o s hstatus hbusy⟩

/-- Settles O3: illegal lines are rejected, and performing them raises ILLEGAL_COMMAND. -/
theorem illegalCommandEndsWithStatus : Obligations.IllegalCommandEndsWithStatus := by
  intro s rest he hi
  obtain ⟨rejected, selected⟩ := decodeRejectsExactlyIllegalLines s.params s.lines
  refine ⟨fun hill => ?_, selected⟩
  obtain ⟨e, herr⟩ := rejected hill
  obtain ⟨hends, hkeeps⟩ := raise_failsWith .illegalCommand 0 s.lines.cmd 0 { s with events := rest }
  exact ⟨_, (step_command_idle he hi).trans (perform_error (s := { s with events := rest }) herr), hends,
    fun r hr hstatus hbusy => (hkeeps r hr hstatus hbusy).trans (peek_lines_events s s.lines rest r)⟩

theorem inputOf_length (i : Instr) : (inputOf i).length = i.inputLength := by
  cases i <;> rfl

/-- A command's lines hold its input and the length of it modulo the width of `IN_LEN` (R86, log 19). -/
theorem encode_input_lines (i : Instr) :
    (encode i).inBuf = inputOf i ∧ (encode i).inLen = BitVec.ofNat 16 i.inputLength := by
  cases i <;> exact ⟨rfl, rfl⟩

/-- Where the host wrote exactly `IN_LEN` bytes, they are the input (20_memory.md R50). -/
theorem Machine.Inputs.input_of_written {l : Inputs} (h : l.inLen.toNat = l.inBuf.length) :
    l.input = l.inBuf := by
  rw [Inputs.input, h, Inputs.bytes_of_written l le_rfl, List.take_length]

/-- The length of an input that fits `IN_LEN` is what `IN_LEN` holds (R80, R86). -/
theorem encode_inLen_toNat {i : Instr} (h : i.FitsLength) : (encode i).inLen.toNat = i.inputLength := by
  rw [(encode_input_lines i).2, BitVec.toNat_ofNat, Nat.mod_eq_of_lt h]

/-- The block reads the input that a command's lines were assembled from (R80, R86). -/
theorem encode_input {i : Instr} (h : i.FitsLength) : (encode i).input = inputOf i := by
  obtain ⟨hbuf, -⟩ := encode_input_lines i
  rw [Inputs.input_of_written, hbuf]
  rw [encode_inLen_toNat h, hbuf, inputOf_length]

/-- The operands of a command's own lines are the command (R82, R86). -/
theorem operands_encode {i : Instr} (h : i.FitsLength) : i.opcode.operands (encode i) = i := by
  have hin := encode_input h
  cases i with
  | construct src dst payload seq ackn freq ack syn fin win =>
    obtain ⟨hack, hsyn, hfin⟩ := flagLines_bits ack syn fin
    simp only [Instr.opcode, Opcode.operands, hin, inputOf]
    simp only [encode, Instr.operandLines, hack, hsyn, hfin]
  | calcChecksum | parse | setPayload => simp only [Instr.opcode, Opcode.operands, hin, inputOf]
  | setAckFlag v =>
    obtain ⟨hack, -⟩ := flagLines_bits v false false
    exact congrArg Instr.setAckFlag hack
  | setSynFlag v =>
    obtain ⟨-, hsyn, -⟩ := flagLines_bits false v false
    exact congrArg Instr.setSynFlag hsyn
  | setFinFlag v =>
    obtain ⟨-, -, hfin⟩ := flagLines_bits false false v
    exact congrArg Instr.setFinFlag hfin
  | serialize | recalcChecksum | isTerminator | setSrcPort | setDstPort | setSeq | setAckNumber
  | setFrequency | setWindow => rfl

/-- Settles O4: the word names the command, its input fits, and its operands are the encoder's. -/
theorem decodeOfEncode : Obligations.DecodeOfEncode := by
  intro p i h
  obtain ⟨hbuf, hlen⟩ := h
  have hcmd : Opcode.ofWord (encode i).cmd = some i.opcode := i.opcode.ofWord_toByte
  rw [decode_ofWord_some hcmd, operands_encode hlen, encode_inLen_toNat hlen]
  exact if_neg fun h => Nat.not_lt.mpr hbuf h.2

/-- The length of the input of a decoded command is `IN_LEN` if it reads `IN`, and 0 otherwise (R82, R86). -/
theorem inputLength_operands (l : Inputs) (op : Opcode) :
    (op.operands l).inputLength = if op.readsIn then l.inLen.toNat else 0 := by
  cases op <;> simp [Opcode.operands, Instr.inputLength, Opcode.readsIn, Inputs.input]

/-- The input of a decoded command fits `IN` and `IN_LEN` (R84 case 3). -/
theorem wellFormed_of_decode {p : Params} {l : Inputs} {i : Instr} (h : decode p l = .ok i) :
    i.WellFormed p := by
  obtain ⟨op, -, -, hr, rfl⟩ := decode_ok_inv h
  have hlen := l.inLen.isLt
  rw [Instr.WellFormed, Instr.FitsBuffer, Instr.FitsLength, inputLength_operands]
  split
  · next hreads => exact ⟨Nat.not_lt.mp fun hlong => hr ⟨hreads, hlong⟩, hlen⟩
  · exact ⟨Nat.zero_le _, by decide⟩

/-- Settles O5: the word on `CMD` names the decoded command. -/
theorem decodedIsWellFormed : Obligations.DecodedIsWellFormed :=
  fun _ _ _ h => ⟨wellFormed_of_decode h, (Opcode.ofWord_eq_some_iff.mp (ofWord_of_decode h)).symm⟩

end Sys2Proof
end

section
/-! SUPPORT. The obligation of 30_encoding.md on the inputs a command does not read (R83). -/

namespace Sys2Proof.Machine

/-- A command has the same operands on lines that agree on what it reads (R82, R83). -/
theorem AgreeOnReads.operands_eq {l l' : Inputs} {op : Opcode} (h : AgreeOnReads l l')
    (hop : Opcode.ofWord l.cmd = some op) :
    op.operands l = op.operands l' ∧ (op.readsIn = true → l.inLen = l'.inLen) := by
  rw [AgreeOnReads, Opcode.ofWord_eq_some_iff.mp hop] at h
  cases op with
  | serialize | recalcChecksum | isTerminator => exact ⟨rfl, nofun⟩
  | construct =>
    obtain ⟨hsrc, hdst, hseq, hackn, hfreq, hflags, hwin, hlen, hin⟩ := h
    exact ⟨by simp only [Opcode.operands, hsrc, hdst, hseq, hackn, hfreq, hflags, hwin, hin],
      fun _ => hlen⟩
  | calcChecksum | parse | setPayload =>
    obtain ⟨hlen, hin⟩ := h
    exact ⟨by simp only [Opcode.operands, hin], fun _ => hlen⟩
  | setSrcPort | setDstPort | setSeq | setAckNumber | setFrequency | setAckFlag | setSynFlag | setFinFlag
  | setWindow =>
    exact ⟨by simpa [Opcode.operands, Opcode.toByte] using h, nofun⟩

/-- Lines with the same `CMD` that agree on what it reads decode to the same (R83, R84). -/
theorem AgreeOnReads.decode_eq {l l' : Inputs} (h : AgreeOnReads l l') (hcmd : l.cmd = l'.cmd)
    (p : Params) : decode p l = decode p l' := by
  cases hop : Opcode.ofWord l.cmd with
  | none => rw [decode_ofWord_none hop, decode_ofWord_none (hcmd ▸ hop), hcmd]
  | some op =>
    obtain ⟨hoperands, hlen⟩ := h.operands_eq hop
    rw [decode_ofWord_some hop, decode_ofWord_some (hcmd ▸ hop), hoperands]
    cases hr : op.readsIn with
    | false => simp
    | true => rw [hlen hr]

/-- Performing a command sees of the lines only `CMD` and what they decode to (R84). -/
theorem perform_congr {l l' : Inputs} {s : State} (hcmd : l.cmd = l'.cmd)
    (hd : decode s.params l = decode s.params l') : perform l s = perform l' s := by
  rw [perform, hd, hcmd]
  rfl

/-- No command sees the lines but through its operands, or writes them (20_memory.md R50, R58). -/
theorem exec_lines (i : Instr) (l : Inputs) (s : State) :
    ∃ t, exec i s = .next t ∧ exec i { s with lines := l } = .next { t with lines := l } := by
  obtain ⟨t, t', h, h', hends⟩ := exec_sameEnding (s := s) (s' := { s with lines := l }) rfl rfl i
  refine ⟨t, h, h'.trans ?_⟩
  cases hends <;> rfl

/-- Performing a command sees no lines but those it is given, and writes none. -/
theorem perform_lines (l l' : Inputs) (s : State) :
    ∃ t, perform l s = .next t ∧ perform l { s with lines := l' } = .next { t with lines := l' } := by
  cases hd : decode s.params l with
  | ok i =>
    obtain ⟨t, h, h'⟩ := exec_lines i l' s
    exact ⟨t, (perform_ok hd).trans h, (perform_ok (s := { s with lines := l' }) hd).trans h'⟩
  | error e => exact ⟨_, perform_error hd, perform_error (s := { s with lines := l' }) hd⟩

/-- Completing a command, raced or not, does not see what `BUSY` stands for in the state (R233, R238). -/
theorem finish_inProgress (c : InProgress) (c' : Option InProgress) (s : State) :
    State.finish c { s with inProgress := c' } = s.finish c := by
  rw [State.finish, perform_inProgress]
  rfl

/-- Completing a command sees of its inputs only `CMD` and what they decode to (R84, R233). -/
theorem finish_congr {l l' : Inputs} {s : State} (hcmd : l.cmd = l'.cmd)
    (hd : decode s.params l = decode s.params l') (raced : Bool) :
    s.finish ⟨l, raced⟩ = s.finish ⟨l', raced⟩ := by
  rw [State.finish, State.finish, perform_congr hcmd hd, State.raceOutcome, hcmd]
  rfl

/-- The step that takes a completion finishes the command in progress (R238). -/
theorem step_complete {s : State} {rest : List Event} (he : s.events = .complete :: rest)
    (c : InProgress) :
    step { s with inProgress := some c } = State.finish c { s with events := rest } :=
  calc
    step { s with inProgress := some c }
        = State.onComplete { s with inProgress := some c, events := rest } :=
      step_event (s := { s with inProgress := some c }) he
    _ = State.finish c { s with inProgress := some c, events := rest } := onComplete_busy rfl
    _ = State.finish c { s with events := rest } :=
      finish_inProgress c (some c) { s with events := rest }

/-- Settles O6: both settings of the lines decode to the same, and no command or race sees more of them. -/
theorem unreadInputsAreIgnored : Obligations.UnreadInputsAreIgnored := by
  intro s l' rest hcmd hagree
  have hd := hagree.decode_eq hcmd s.params
  refine ⟨hd, fun he hi => ?_, fun he raced => ?_⟩
  · obtain ⟨t, h, h'⟩ := perform_lines l' l' { s with events := rest }
    refine ⟨t, { t with lines := l' }, ?_, ?_, fun r => (peek_lines_events t l' t.events r).symm⟩
    · rw [step_command_idle he hi, perform_congr (s := { s with events := rest }) hcmd hd, h]
    · exact (step_command_idle (s := { s with lines := l' }) he hi).trans h'
  · obtain ⟨t, h, -⟩ := finish_inProgress_none ⟨l', raced⟩ { s with events := rest }
    refine ⟨t, t, ?_, (step_complete he _).trans h, fun _ => rfl⟩
    rw [step_complete he, finish_congr (s := { s with events := rest }) hcmd hd, h]

end Sys2Proof.Machine
end

section
/-! SUPPORT. The obligations of 30_encoding.md on the host's side of ROUNDTRIP and on SEAL (R87). -/

namespace Sys2Proof.Machine

/-- The lines that ROUNDTRIP's copy drives: PARSE of `OUT[0..OUT_LEN)` (R87). -/
def State.parseOutLines (s : State) : Inputs :=
  { s.lines with
    cmd := Opcode.parse.toByte.setWidth 32, inBuf := s.out, inLen := BitVec.ofNat 16 s.out.length }

/-- With `STATUS = OK` and a valid `OUT`, ROUNDTRIP's copy drives PARSE of it and presents that next (R87). -/
theorem onParseOut_ok {s : State} (hi : s.inProgress = none) (hv : s.outValid = true)
    (hst : s.status = .ok) :
    s.onParseOut = .next { s.drive s.parseOutLines with events := .command :: s.events } := by
  simp [State.onParseOut, hi, hv, hst, State.parseOutLines]

/-- With any other `STATUS`, ROUNDTRIP's copy does nothing (R87). -/
theorem onParseOut_not_ok {s : State} (hst : s.status ≠ .ok) : s.onParseOut = .next s := by
  unfold State.onParseOut
  split
  · next h => exact absurd h hst
  · rfl

/-- Driving the lines changes no register (10_state.md R35). -/
theorem peek_drive (l : Inputs) (s : State) (r : Reg) : (s.drive l).peek r = s.peek r := by
  cases r with
  | busy => simp [State.peek, State.drive_inProgress]
  | _ => rfl

/-- What ROUNDTRIP's copy drives decodes to PARSE of `OUT`, which fits `IN` and `IN_LEN` (R84, R87,
00_scope.md R6). -/
theorem decode_parseOutLines {s : State} (hs : s.WithinCapacity) (hp : s.params.Legal) :
    decode s.params (s.drive s.parseOutLines).lines = .ok (.parse s.out) := by
  obtain ⟨-, hout, -⟩ := hs
  have hbuf : (s.drive s.parseOutLines).lines.inBuf = s.out := List.take_of_length_le (hout.trans hp)
  have hlen : (s.drive s.parseOutLines).lines.inLen.toNat = s.out.length :=
    Nat.mod_eq_of_lt (by omega)
  have hcmd : Opcode.ofWord (s.drive s.parseOutLines).lines.cmd = some .parse :=
    Opcode.parse.ofWord_toByte
  have hinput := Inputs.input_of_written (hlen.trans (congrArg List.length hbuf.symm))
  rw [decode_ofWord_some hcmd, hlen,
    if_neg fun h => Nat.not_lt.mpr (hout.trans hp) h.2, Opcode.operands, hinput, hbuf]

/-- Settles O16, for `STATUS = OK` and for any other status. -/
theorem roundtripPresentsOutputToParse : Obligations.RoundtripPresentsOutputToParse := by
  intro s rest he hi hv hs hp
  by_cases hst : s.status = .ok
  · refine ⟨_, (step_event he).trans (onParseOut_ok (s := { s with events := rest }) hi hv hst), ?_,
      fun _ => ⟨rfl, ?_⟩, absurd hst⟩
    · exact fun r =>
        (peek_lines_events (State.drive _ { s with events := rest }) _ _ r).trans
          ((peek_drive _ { s with events := rest } r).trans (peek_lines_events s s.lines rest r))
    · exact decode_parseOutLines (s := { s with events := rest }) hs hp
  · exact ⟨_, (step_event he).trans (onParseOut_not_ok (s := { s with events := rest }) hst),
      peek_lines_events s s.lines rest, fun h => absurd h hst, fun _ => ⟨rfl, rfl⟩⟩

/-- A SET_* that ends with OK leaves a packet (40_serializer.md R101). -/
theorem pkt_some_of_isSet {i : Instr} {s t : State} (hset : isSet i = true) (h : exec i s = .next t)
    (hst : t.status = .ok) : ∃ p, t.pkt = some p := by
  cases commandEnds_of_exec h with
  | failed _ _ _ _ ne_ok => exact absurd hst ne_ok
  | payloadSet | fieldWritten => exact ⟨_, rfl⟩
  | constructed | parsed | serialized | checksummed | judged => cases hset

/-- Settles O35: RECALC_CHECKSUM seals the packet that the SET_* left (40_serializer.md R104, R112). -/
theorem sealMakesChecksumCurrent : Obligations.SealMakesChecksumCurrent := by
  intro i s t u hset h hst hu
  obtain ⟨p, hp⟩ := pkt_some_of_isSet hset h hst
  obtain ⟨hparams, -⟩ := exec_keepsHostSide h
  have hseal : exec .recalcChecksum t =
      .next (t.loadPacket (p.sealed t.params.digestIntOrder)).complete :=
    congrArg Host.Outcome.next (mutatePacket_some hp _)
  cases hseal.symm.trans hu
  refine ⟨_, rfl, ?_⟩
  rw [← hparams]
  exact sealed_checksum _ p

end Sys2Proof.Machine
end

section
/-! SUPPORT. The obligations of 30_encoding.md on the wire form: the byte map (R71) and byte 12 (R72). -/

namespace Sys2Proof.Machine

/-- The bytes of a word as numbers, the most significant first (00_scope.md R8). -/
theorem bytesBe32_toNat (v : Word) :
    (bytesBe32 v).map BitVec.toNat =
      [v.toNat / 2 ^ 24, v.toNat / 2 ^ 16 % 256, v.toNat / 256 % 256, v.toNat % 256] := by
  have := v.isLt
  simp only [bytesBe32, List.map_cons, List.map_nil, toNat_field, List.cons.injEq, and_true]
  omega

/-- Word 0 of the header: the two ports, two bytes each (R70, R71). -/
theorem bytesBe32_word0 (p : Packet) :
    (bytesBe32 p.word0).map BitVec.toNat =
      [p.srcPort.toNat / 256, p.srcPort.toNat % 256, p.dstPort.toNat / 256, p.dstPort.toNat % 256] := by
  have := p.srcPort.isLt
  have := p.dstPort.isLt
  have hword : p.word0.toNat = p.srcPort.toNat * 2 ^ 16 + p.dstPort.toNat := toNat_append_add _ _
  simp only [bytesBe32_toNat, hword, List.cons.injEq, and_true]
  omega

/-- Word 3 of the header: byte 12, `data_offset` and the checksum (R70, R71). -/
theorem bytesBe32_word3 (p : Packet) :
    (bytesBe32 p.word3).map BitVec.toNat =
      [8 * p.frequency.toNat + 4 * p.ack.toNat + 2 * p.syn.toNat + p.fin.toNat, p.dataOffset.toNat,
        p.checksum.toNat / 256, p.checksum.toNat % 256] := by
  have := p.dataOffset.isLt
  have := p.checksum.isLt
  have hflags := flagByte_toNat p.frequency p.ack p.syn p.fin
  have := (flagByte p.frequency p.ack p.syn p.fin).isLt
  have hword : p.word3.toNat =
      ((flagByte p.frequency p.ack p.syn p.fin).toNat * 2 ^ 8 + p.dataOffset.toNat) * 2 ^ 16 +
        p.checksum.toNat := by
    rw [← toNat_append_add, ← toNat_append_add]
    rfl
  simp only [bytesBe32_toNat, hword, ← hflags, List.cons.injEq, and_true]
  omega

/-- Settles O26: the five header words, byte by byte. -/
theorem serializedByteMap : Obligations.SerializedByteMap := by
  intro p
  have hheader : (ser p).take 20 = p.header := List.take_left' (header_length p)
  refine ⟨?_, ser_drop p⟩
  rw [hheader]
  rw [Packet.header, List.map_append, List.map_append, List.map_append, List.map_append,
    bytesBe32_word0, bytesBe32_word3]
  simp only [bytesBe32_toNat, List.cons_append, List.nil_append]

/-- A bit of byte 12 as arithmetic. -/
theorem getLsbD_eq_of_toNat {x : Byte} {i : Nat} {b : Bool} (h : x.toNat / 2 ^ i % 2 = b.toNat) :
    x.getLsbD i = b := by
  rw [BitVec.getLsbD, Nat.testBit_eq_decide_div_mod_eq, h]
  cases b <;> rfl

/-- Settles O27: each field by its place in byte 12, and the 256 byte values by evaluation. -/
theorem flagBytePacksAndUnpacks : Obligations.FlagBytePacksAndUnpacks := by
  refine ⟨fun f a s n => ?_, by decide +kernel⟩
  have hbyte := flagByte_toNat f a s n
  have := f.isLt
  have := a.toNat_le
  have := s.toNat_le
  have := n.toNat_le
  refine ⟨hbyte, BitVec.eq_of_toNat_eq ?_, getLsbD_eq_of_toNat ?_, getLsbD_eq_of_toNat ?_,
    getLsbD_eq_of_toNat ?_⟩
  · rw [frequencyOf, toNat_field]; omega
  all_goals omega

end Sys2Proof.Machine
end

section
/-! SUPPORT. What the obligations of 40_serializer.md share: the decoder on one command word, how a command ends with
OK, the commands that need a packet (R101), and the frame of the commands that write fields of `PKT` (R112, R120 to
R129). -/

namespace Sys2Proof.Machine

/-- A command word that reads no `IN` decodes to its command, whatever `IN_LEN` is (30_encoding.md R82, R84). -/
theorem decode_cmd_eq {p : Params} {l : Inputs} {cmd : Word} {op : Opcode} (h : l.cmd = cmd)
    (hop : Opcode.ofWord cmd = some op) (reads : op.readsIn = false) :
    decode p l = .ok (op.operands l) := by
  rw [decode_ofWord_some (h ▸ hop), if_neg]
  simp [reads]

/-- A command word that reads `IN` decodes to its command, unless `IN_LEN` is beyond `IN` (30_encoding.md R82,
R84). -/
theorem decode_cmd_eq_readsIn {p : Params} {l : Inputs} {cmd : Word} {op : Opcode} (h : l.cmd = cmd)
    (hop : Opcode.ofWord cmd = some op) (reads : op.readsIn = true) :
    (l.inLen.toNat ≤ p.maxInBytes → decode p l = .ok (op.operands l)) ∧
      (p.maxInBytes < l.inLen.toNat → decode p l = .error .inputTooLong) := by
  rw [decode_ofWord_some (h ▸ hop)]
  exact ⟨fun fits => if_neg fun hlong => Nat.not_lt.mpr fits hlong.2, fun long => if_pos ⟨reads, long⟩⟩

/-- A command that completes ends with OK (60_exceptions.md R202). -/
theorem complete_endsOk (s : State) : EndsOk s.complete :=
  ⟨rfl, rfl, rfl, rfl, rfl⟩

/-- A command that completes changes what it wrote before, `STATUS` and the error registers (R202). -/
theorem complete_keepsOthers {written : Reg → Prop} {s t : State}
    (h : ∀ r, ¬ written r → t.peek r = s.peek r) : KeepsOthers written s t.complete :=
  fun r hr hstatus hbusy => (peek_complete t hstatus hbusy).trans (h r hr)

/-- The commands that need a packet check for it before anything else (R101). -/
theorem exec_eq_needsPacket {i : Instr} (h : needsPkt i = true) (s : State) :
    ∃ k, exec i s = .next (needsPacket s k) := by
  cases i with
  | construct | calcChecksum | parse => simp [needsPkt, isSet] at h
  | serialize | recalcChecksum | isTerminator | setSrcPort | setDstPort | setSeq | setAckNumber
  | setFrequency | setAckFlag | setSynFlag | setFinFlag | setWindow | setPayload => exact ⟨_, rfl⟩

/-- Settles O28: the check for a packet comes first. -/
theorem commandsWithoutPacketFail : Obligations.CommandsWithoutPacketFail := by
  intro i s hneeds hnone
  obtain ⟨k, hexec⟩ := exec_eq_needsPacket hneeds s
  rw [needsPacket_none hnone] at hexec
  exact ⟨_, hexec, raise_failsWith .noPacket 0 0 0 s⟩

theorem needsPkt_of_isSet {i : Instr} (h : isSet i = true) : needsPkt i = true := by
  simp [needsPkt, h]

/-- Loading an update of the packet there is changes no register that the command does not write, field by field
(10_state.md R26). -/
theorem peek_loadPacket_of_fieldsByWriter {i : Instr} {s : State} {p q : Packet} (hp : s.pkt = some p)
    (hq : FieldsByWriter i p q) {r : Reg} (hr : commandWrites i.opcode r = false) :
    (s.loadPacket q).peek r = s.peek r := by
  have kept {α : Type} {x y : α} {op : Opcode} (writer : x ≠ y → i.opcode = op)
      (writes : commandWrites op r = true) : x = y := by
    by_contra hne
    rw [writer hne, writes] at hr
    cases hr
  obtain ⟨hsrc, hdst, hseq, hackn, hfreq, hack, hsyn, hfin, hwin, hpayload, hoff, hchk⟩ := hq
  cases r with
  | pktValid => simp [State.peek, hp]
  | srcPort => simp [State.peek, hp, kept hsrc rfl]
  | dstPort => simp [State.peek, hp, kept hdst rfl]
  | seqNumber => simp [State.peek, hp, kept hseq rfl]
  | ackNumber => simp [State.peek, hp, kept hackn rfl]
  | frequency => simp [State.peek, hp, kept hfreq rfl]
  | ack => simp [State.peek, hp, kept hack rfl]
  | syn => simp [State.peek, hp, kept hsyn rfl]
  | fin => simp [State.peek, hp, kept hfin rfl]
  | dataOffset => simp [State.peek, hp, kept hoff rfl]
  | checksum => simp [State.peek, hp, kept hchk rfl]
  | windowSize => simp [State.peek, hp, kept hwin rfl]
  | payloadLen | payload => simp [State.peek, hp, kept hpayload rfl]
  | _ => exact peek_loadPacket q s rfl

/-- The one register that RECALC_CHECKSUM, or a SET_* but SET_PAYLOAD, writes besides `STATUS` and the error
registers. -/
def fieldRegister : Opcode → Option Reg
  | .recalcChecksum => some .checksum
  | .setSrcPort => some .srcPort
  | .setDstPort => some .dstPort
  | .setSeq => some .seqNumber
  | .setAckNumber => some .ackNumber
  | .setFrequency => some .frequency
  | .setAckFlag => some .ack
  | .setSynFlag => some .syn
  | .setFinFlag => some .fin
  | .setWindow => some .windowSize
  | _ => none

theorem commandWrites_of_fieldRegister {op : Opcode} {field r : Reg} (h : fieldRegister op = some field)
    (hr : r ≠ field) : commandWrites op r = false := by
  cases op <;> cases h <;> simp [commandWrites, hr]

/-- A command that writes one field is `mutatePacket` of its update (R112, R120 to R128). -/
theorem exec_eq_mutatePacket {i : Instr} {s : State} {f : Packet → Packet}
    (hf : fieldUpdate s.params.digestIntOrder i = some f) : exec i s = .next (mutatePacket f s) := by
  cases i <;> cases hf <;> rfl

/-- On a packet, a command that writes one field completes with OK, its register reads the new value, and every other
register reads as before (R112, R120 to R128). -/
theorem exec_writesField {i : Instr} {s : State} {p : Packet} {f : Packet → Packet} {field : Reg} {v : Word}
    (hf : fieldUpdate s.params.digestIntOrder i = some f) (hfield : fieldRegister i.opcode = some field)
    (hp : s.pkt = some p) (hv : (s.loadPacket (f p)).complete.peek field = some v) :
    ∃ t, exec i s = .next t ∧ t.peek field = some v ∧ EndsOk t ∧ KeepsOthers (fun r => r = field) s t := by
  have hexec := exec_eq_mutatePacket hf
  rw [mutatePacket_some hp] at hexec
  exact ⟨_, hexec, hv, complete_endsOk _, complete_keepsOthers fun _ hr =>
    peek_loadPacket_of_fieldsByWriter hp (fieldUpdate_fieldsByWriter hf p)
      (commandWrites_of_fieldRegister hfield hr)⟩

end Sys2Proof.Machine
end

section
/-! SUPPORT. The obligations of 40_serializer.md on CONSTRUCT, SERIALIZE and RECALC_CHECKSUM (R102 to R113). -/

namespace Sys2Proof.Machine

/-- Settles O22: PAD_ZERO fills the last word. -/
theorem storedPayloadIsPadded : Obligations.StoredPayloadIsPadded := by
  refine fun input => ⟨⟨(4 - input.length % 4) % 4, ?_, rfl, storedPayload_length .padZero input⟩, rfl⟩
  omega

/-- `data_offset` has room for the number of words of an operand that fits the payload storage (R102). -/
theorem ofNat_wordsCeil_toNat {n : Nat} (fits : n ≤ 1020) :
    (BitVec.ofNat 8 (wordsCeil n)).toNat = (n + 3) / 4 := by
  simp only [wordsCeil, BitVec.toNat_ofNat]
  omega

/-- A payload operand beyond the payload storage ends with PAYLOAD_TOO_LONG (R102). -/
theorem checkPayload_failsWith {input : List Byte} (long : 1020 < input.length) (s k : State) :
    FailsWith 0x6 1020 (BitVec.ofNat 32 input.length) 1020 s (checkPayload input s k) := by
  rw [checkPayload_tooLong long]
  exact raise_failsWith .payloadTooLong 1020 _ 1020 s

/-- Settles O21: CONSTRUCT loads the packet it built and sealed, if the payload fits. -/
theorem constructLoadsPacket : Obligations.ConstructLoadsPacket := by
  refine ⟨fun p l h => decode_cmd_eq_readsIn (op := .construct) h rfl rfl, ?_⟩
  intro src dst payload seq ackn freq ack syn fin win s _
  refine ⟨fun long => ⟨_, rfl, checkPayload_failsWith long s _⟩, fun fits => ?_⟩
  exact ⟨_, _, congrArg Host.Outcome.next (checkPayload_fits fits s _), rfl, rfl, rfl, rfl, rfl, rfl, rfl, rfl,
    rfl, rfl, rfl, ofNat_wordsCeil_toNat fits, rfl, complete_endsOk _,
    complete_keepsOthers fun _ hr => peek_loadPacket _ s (Bool.eq_false_of_not_eq_true hr)⟩

/-- Settles O24: the packet CONSTRUCT loads is sealed. -/
theorem constructedChecksumCoversPacket : Obligations.ConstructedChecksumCoversPacket := by
  intro src dst payload seq ackn freq ack syn fin win s t h hst
  cases commandEnds_of_exec h with
  | failed _ _ _ _ ne_ok => exact absurd hst ne_ok
  | fieldWritten hf => cases hf
  | constructed =>
    have current := sealed_checksum s.params.digestIntOrder
      (builtPacket s.params.unalignedPayload src dst payload seq ackn freq ack syn fin win)
    exact ⟨_, rfl, current, (storedChecksum_ser _).trans current⟩

theorem commandWrites_serialize_iff {r : Reg} :
    commandWrites .serialize r = true ↔ r = .outLen ∨ r = .outValid ∨ ∃ i, r = .out i := by
  cases r <;> simp [commandWrites]

/-- Settles O25: SERIALIZE loads `OUT` with `ser(PKT)`. -/
theorem serializeEmitsWireForm : Obligations.SerializeEmitsWireForm := by
  refine ⟨fun p l h => decode_cmd_eq (op := .serialize) h rfl rfl, fun s =>
    ⟨commandsWithoutPacketFail .serialize s rfl, fun p hp _ => ?_⟩⟩
  have hexec : exec .serialize s = .next (s.loadOut (ser p)).complete :=
    congrArg Host.Outcome.next (needsPacket_some hp _)
  refine ⟨_, hexec, fun i hi => ?_, fun i hi => ?_, ?_, rfl, complete_endsOk _,
    complete_keepsOthers fun r hr => peek_loadOut _ s ?_⟩
  · show (ser p)[i]?.map (fun b => b.setWidth 32) = _
    rw [List.getElem?_eq_getElem hi]
    rfl
  · exact peek_out_none (.inr (by simpa using hi))
  · simp [State.peek]
  · exact Bool.eq_false_of_not_eq_true (mt commandWrites_serialize_iff.mp hr)

/-- Settles O29: RECALC_CHECKSUM writes the checksum of the serialization with the checksum field 0. -/
theorem recalcWritesZeroedChecksum : Obligations.RecalcWritesZeroedChecksum := by
  refine ⟨fun p l h => decode_cmd_eq (op := .recalcChecksum) h rfl rfl, fun s =>
    ⟨commandsWithoutPacketFail .recalcChecksum s rfl, fun p hp => ?_⟩⟩
  obtain ⟨t, hexec, hchk, hends⟩ := exec_writesField (i := .recalcChecksum) rfl rfl hp rfl
  refine ⟨t, hexec, hchk, ?_, hends⟩
  rw [chkZ, zeroedCopy_ser]
  exact hchk

/-- Sealing does not see the checksum that a packet has (R112). -/
theorem sealed_sealed (o : DigestIntOrder) (p : Packet) : (p.sealed o).sealed o = p.sealed o := rfl

/-- Sealing leaves a packet with a current checksum as it is (R113). -/
theorem sealed_eq_self {o : DigestIntOrder} {p : Packet} (current : p.checksum = chkZ o (ser p)) :
    p.sealed o = p := by
  rw [chkZ, zeroedCopy_ser] at current
  rw [Packet.sealed, ← current]

/-- RECALC_CHECKSUM seals the packet, if there is one (R112). -/
theorem exec_recalcChecksum_pkt {s t : State} (h : exec .recalcChecksum s = .next t) :
    t.params = s.params ∧ t.pkt = s.pkt.map (Packet.sealed s.params.digestIntOrder) := by
  obtain ⟨hparams, -⟩ := exec_keepsHostSide h
  refine ⟨hparams, ?_⟩
  cases (exec_eq_mutatePacket (i := .recalcChecksum) rfl).symm.trans h
  cases hp : s.pkt with
  | none => rw [mutatePacket_none hp]; exact hp
  | some p => rw [mutatePacket_some hp]; rfl

/-- Settles O30: sealing twice is sealing once, and sealing keeps a current packet. -/
theorem recalcIsIdempotent : Obligations.RecalcIsIdempotent := by
  intro s t h
  obtain ⟨hparams, hpkt⟩ := exec_recalcChecksum_pkt h
  refine ⟨fun u hu => ?_, fun p hp current => ?_⟩
  · obtain ⟨-, hupkt⟩ := exec_recalcChecksum_pkt hu
    rw [hupkt, hparams, hpkt, Option.map_map]
    exact congrArg s.pkt.map (funext (sealed_sealed _))
  · rw [hpkt, hp, Option.map_some, sealed_eq_self current]

end Sys2Proof.Machine
end

section
/-! SUPPORT. The obligations of 40_serializer.md on the SET_* commands (R120 to R129). -/

namespace Sys2Proof.Machine

/-- Settles O31: the port is the one field each command writes. -/
theorem setPortsWriteOneField : Obligations.SetPortsWriteOneField := by
  refine ⟨fun p l => ⟨fun h => decode_cmd_eq (op := .setSrcPort) h rfl rfl,
    fun h => decode_cmd_eq (op := .setDstPort) h rfl rfl⟩, fun s v => ⟨fun hnone => ?_, fun hsome => ?_⟩⟩
  · have fails i (h : isSet i = true) := commandsWithoutPacketFail i s (needsPkt_of_isSet h) hnone
    exact ⟨fails _ rfl, fails _ rfl⟩
  · obtain ⟨p, hp⟩ := Option.ne_none_iff_exists'.mp hsome
    exact ⟨exec_writesField rfl rfl hp rfl, exec_writesField rfl rfl hp rfl⟩

/-- Settles O32: the number is the one field each command writes. -/
theorem setNumbersWriteOneField : Obligations.SetNumbersWriteOneField := by
  refine ⟨fun p l => ⟨fun h => decode_cmd_eq (op := .setSeq) h rfl rfl,
    fun h => decode_cmd_eq (op := .setAckNumber) h rfl rfl,
    fun h => decode_cmd_eq (op := .setWindow) h rfl rfl⟩, fun s v => ⟨fun hnone => ?_, fun hsome => ?_⟩⟩
  · have fails i (h : isSet i = true) := commandsWithoutPacketFail i s (needsPkt_of_isSet h) hnone
    exact ⟨fails _ rfl, fails _ rfl, fails _ rfl⟩
  · obtain ⟨p, hp⟩ := Option.ne_none_iff_exists'.mp hsome
    exact ⟨exec_writesField rfl rfl hp rfl, exec_writesField rfl rfl hp rfl,
      exec_writesField rfl rfl hp rfl⟩

/-- Settles O33: the frequency, or the flag, is the one field each command writes. -/
theorem setFrequencyAndFlagsWriteOneField : Obligations.SetFrequencyAndFlagsWriteOneField := by
  refine ⟨fun p l => ⟨fun h => decode_cmd_eq (op := .setFrequency) h rfl rfl,
    fun h => decode_cmd_eq (op := .setAckFlag) h rfl rfl,
    fun h => decode_cmd_eq (op := .setSynFlag) h rfl rfl,
    fun h => decode_cmd_eq (op := .setFinFlag) h rfl rfl⟩, fun s f b => ⟨fun hnone => ?_, fun hsome => ?_⟩⟩
  · have fails i (h : isSet i = true) := commandsWithoutPacketFail i s (needsPkt_of_isSet h) hnone
    exact ⟨fails _ rfl, fails _ rfl, fails _ rfl, fails _ rfl⟩
  · obtain ⟨p, hp⟩ := Option.ne_none_iff_exists'.mp hsome
    exact ⟨exec_writesField rfl rfl hp rfl, exec_writesField rfl rfl hp rfl,
      exec_writesField rfl rfl hp rfl, exec_writesField rfl rfl hp rfl⟩

/-- On a packet, SET_PAYLOAD is the length check, then the payload assigned by R102 (R129). -/
theorem exec_setPayload_some {s : State} {p : Packet} (hp : s.pkt = some p) (payload : List Byte) :
    exec (.setPayload payload) s = .next (checkPayload payload s
      (s.loadPacket (p.assignPayload s.params.unalignedPayload payload)).complete) :=
  congrArg Host.Outcome.next (needsPacket_some hp _)

theorem commandWrites_setPayload_iff {r : Reg} :
    commandWrites .setPayload r = true ↔ r = .payloadLen ∨ r = .dataOffset ∨ ∃ i, r = .payload i := by
  cases r <;> simp [commandWrites]

/-- Settles O34: the check for a packet, then the length check, then the payload assigned by R102. -/
theorem setPayloadReplacesPayload : Obligations.SetPayloadReplacesPayload := by
  refine ⟨fun p l h => decode_cmd_eq_readsIn (op := .setPayload) h rfl rfl, fun s payload _ =>
    ⟨commandsWithoutPacketFail _ s (needsPkt_of_isSet rfl), fun hsome long => ?_, fun hsome fits => ?_⟩⟩
  · obtain ⟨p, hp⟩ := Option.ne_none_iff_exists'.mp hsome
    exact ⟨_, exec_setPayload_some hp payload, checkPayload_failsWith long s _⟩
  · obtain ⟨p, hp⟩ := Option.ne_none_iff_exists'.mp hsome
    have hexec := exec_setPayload_some hp payload
    rw [checkPayload_fits fits] at hexec
    exact ⟨_, _, hexec, rfl, rfl, ofNat_wordsCeil_toNat fits, complete_endsOk _,
      complete_keepsOthers fun _ hr =>
        peek_loadPacket_of_fieldsByWriter hp (assignPayload_fieldsByWriter payload _ p)
          (Bool.eq_false_of_not_eq_true (mt commandWrites_setPayload_iff.mp hr))⟩

end Sys2Proof.Machine
end

section
/-! SUPPORT. The obligations of 41_checksum.md: the padding and the message words (R144), the zeroed copy (R141), the
checksum in terms of the chaining words (R149), and CALC_CHECKSUM (R150). -/

namespace Sys2Proof.Machine

/-- The zero bytes of the padding bring the length to 56 modulo 64 (R144). -/
theorem padZeros_reaches (n : Nat) : (n + 1 + padZeros n) % 64 = 56 := by
  unfold padZeros
  omega

/-- No smaller number of zero bytes brings the length to 56 modulo 64 (R144). -/
theorem padZeros_le {n j : Nat} (h : (n + 1 + j) % 64 = 56) : padZeros n ≤ j := by
  unfold padZeros
  omega

/-- The padded message fills whole blocks: the eight bytes of the bit length follow 56 bytes modulo 64 (R144). -/
theorem pad_length_mod (m : List Byte) : (pad m).length % 64 = 0 := by
  have reaches := padZeros_reaches m.length
  have hlen : (pad m).length = m.length + 1 + padZeros m.length + 8 := by
    simp only [pad, List.length_append, List.length_singleton, zeros_length, bytesLe64_length]
  omega

/-- One message word for every four bytes (R144). -/
theorem wordsOf_length : ∀ blk : List Byte, (wordsOf blk).length = blk.length / 4
  | [] | [_] | [_, _] | [_, _, _] => by simp [wordsOf]
  | w :: x :: y :: z :: rest => by
    simp only [wordsOf, List.length_cons, wordsOf_length rest]
    omega

/-- Message word `j` is the little-endian word of the bytes from `4 * j` on (R144). -/
theorem wordsOf_getElem? {blk : List Byte} {j : Nat} (h : j < (wordsOf blk).length) :
    (wordsOf blk)[j]? = some (le32 (byteAt blk (4 * j)) (byteAt blk (4 * j + 1))
      (byteAt blk (4 * j + 2)) (byteAt blk (4 * j + 3))) := by
  induction blk using wordsOf.induct generalizing j with
  | case1 w x y z rest ih =>
    cases j with
    | zero => rfl
    | succ j => exact ih (Nat.lt_of_succ_lt_succ h)
  | case2 blk short =>
    rw [wordsOf.eq_2 _ short] at h
    exact absurd h (Nat.not_lt_zero j)

/-- Settles O37: the padding by `padZeros`, the words by the four bytes at a time that `wordsOf` takes. -/
theorem paddingFillsBlocks : Obligations.PaddingFillsBlocks := by
  refine ⟨fun m => ⟨padZeros m.length, rfl, padZeros_reaches _, fun _ => padZeros_le, pad_length_mod m⟩,
    fun blk hblk => ?_⟩
  have hlen : (wordsOf blk).length = 16 := by rw [wordsOf_length, hblk]
  exact ⟨hlen, fun j hj => wordsOf_getElem? (hlen ▸ hj)⟩

/-- Byte 14 and byte 15 of a digest are bits 23 to 16 and bits 31 to 24 of its last word (R149). -/
theorem chk_big (s : List Byte) :
    chk .big s = (md5Chain s).d.extractLsb 23 16 ++ (md5Chain s).d.extractLsb 31 24 := rfl

/-- Byte 1 and byte 0 of a digest are the low half of its first word (R149). -/
theorem chk_little (s : List Byte) : chk .little s = (md5Chain s).a.extractLsb 15 0 := by
  show be16 ((md5Chain s).a.extractLsb 15 8) ((md5Chain s).a.extractLsb 7 0) = _
  apply BitVec.eq_of_toNat_eq
  rw [be16, toNat_append_add, toNat_field, toNat_field, toNat_field]
  omega

/-- Settles O38: the checksum takes its two bytes from the last word of the digest, or from the first. -/
theorem checksumFromChainingWords : Obligations.ChecksumFromChainingWords :=
  fun s => ⟨rfl, chk_big s, chk_little s⟩

/-- Behind 14 bytes, the two bytes of the checksum field become zero bytes (30_encoding.md R74). -/
theorem zeroedCopy_append {before : List Byte} (h : before.length = 14) (x y : Byte) (after : List Byte) :
    zeroedCopy (before ++ x :: y :: after) = before ++ [0x00, 0x00] ++ after := by
  simp [zeroedCopy, h]

/-- The zeroed copy is the bytes before the checksum field, two zero bytes, and the bytes after it (R74). -/
theorem zeroedCopy_eq {s : List Byte} (h : 16 ≤ s.length) :
    zeroedCopy s = s.take 14 ++ [0x00, 0x00] ++ s.drop 16 := by
  have hs : s = s.take 14 ++ s[14] :: s[15] :: s.drop 16 := by
    rw [List.getElem_cons_drop, List.getElem_cons_drop, List.take_append_drop]
  have hbefore : (s.take 14).length = 14 := List.length_take_of_le (by omega)
  exact (congrArg zeroedCopy hs).trans (zeroedCopy_append hbefore _ _ _)

/-- The zeroed copy does not see what bytes 14 and 15 were (R141). -/
theorem zeroedCopy_set_field (s : List Byte) (x y : Byte) :
    zeroedCopy ((s.set 14 x).set 15 y) = zeroedCopy s := by
  rw [zeroedCopy, List.set_comm y 0 (by decide), List.set_set, List.set_set, zeroedCopy]

/-- Settles O39: the checksum is of the zeroed copy, which does not see the field. -/
theorem zeroedChecksumIgnoresField : Obligations.ZeroedChecksumIgnoresField := by
  intro o s h
  refine ⟨?_, fun x y => ?_⟩
  · rw [chkZ, zeroedCopy_eq h]
  · rw [chkZ, zeroedCopy_set_field, chkZ]

theorem commandWrites_calcChecksum_iff {r : Reg} :
    commandWrites .calcChecksum r = true ↔ r = .resChk ∨ r = .chkValid := by
  cases r <;> simp [commandWrites]

/-- Settles O36: CALC_CHECKSUM loads `RES_CHK` and completes. -/
theorem calcChecksumWritesResult : Obligations.CalcChecksumWritesResult := by
  refine ⟨fun p l h => decode_cmd_eq_readsIn (op := .calcChecksum) h rfl rfl, fun s input _ =>
    ⟨(s.loadChk (chk s.params.digestIntOrder input)).complete, rfl, rfl, rfl, complete_endsOk _,
      complete_keepsOthers fun r hr => peek_loadChk _ s ?_⟩⟩
  exact Bool.eq_false_of_not_eq_true (mt commandWrites_calcChecksum_iff.mp hr)

end Sys2Proof.Machine
end

section
/-! SUPPORT. The obligations of 42_parser.md: PARSE by the check it fails at (R171 to R173, R176) or by the packet it
loads (R170, R174, R175), the round trip through OUT (R178, R179, R182), and IS_TERMINATOR (R180, R181). -/

namespace Sys2Proof.Machine

/-- The input passes the three checks of PARSE (42_parser.md R176). -/
structure PassesParse (o : DigestIntOrder) (input : List Byte) : Prop where
  long : 20 ≤ input.length
  checksum : chkZ o input = storedChecksum input
  whole : 20 + declaredPayload input ≤ input.length

/-- PARSE of fewer than 20 bytes fails at the first check (R173). -/
theorem exec_parse_tooShort {input : List Byte} (short : input.length < 20) (s : State) :
    exec (.parse input) s =
      .next (s.raise .tooShort 20 (BitVec.ofNat 32 input.length) (BitVec.ofNat 16 input.length)) :=
  congrArg Host.Outcome.next (if_pos short)

/-- PARSE of 20 bytes or more with another checksum than they carry fails at the second check (R171). -/
theorem exec_parse_mismatch {input : List Byte} {s : State} (long : 20 ≤ input.length)
    (mismatch : chkZ s.params.digestIntOrder input ≠ storedChecksum input) :
    exec (.parse input) s =
      .next (s.raise .checksumMismatch ((chkZ s.params.digestIntOrder input).setWidth 32)
        ((storedChecksum input).setWidth 32) 14) :=
  congrArg Host.Outcome.next ((if_neg (Nat.not_lt.mpr long)).trans (if_pos mismatch))

/-- PARSE of an input that ends before its declared payload does fails at the third check (R172). -/
theorem exec_parse_truncated {input : List Byte} {s : State} (long : 20 ≤ input.length)
    (checksum : chkZ s.params.digestIntOrder input = storedChecksum input)
    (truncated : input.length < 20 + declaredPayload input) :
    exec (.parse input) s =
      .next (s.raise .truncatedPayload (BitVec.ofNat 32 (20 + declaredPayload input))
        (BitVec.ofNat 32 input.length) (BitVec.ofNat 16 input.length)) :=
  congrArg Host.Outcome.next
    ((if_neg (Nat.not_lt.mpr long)).trans ((if_neg (not_not.mpr checksum)).trans (if_pos truncated)))

/-- PARSE of an input that passes every check loads the packet it holds, sealed anew (R170, R174). -/
theorem exec_parse_passes {input : List Byte} {s : State}
    (passes : PassesParse s.params.digestIntOrder input) :
    exec (.parse input) s =
      .next (s.loadPacket ((unpack input).sealed s.params.digestIntOrder)).complete :=
  congrArg Host.Outcome.next
    ((if_neg (Nat.not_lt.mpr passes.long)).trans
      ((if_neg (not_not.mpr passes.checksum)).trans (if_neg (Nat.not_lt.mpr passes.whole))))

/-- A PARSE that ends with OK passed every check. -/
theorem passesParse_of_ok {input : List Byte} {s t : State} (h : exec (.parse input) s = .next t)
    (hst : t.status = .ok) : PassesParse s.params.digestIntOrder input := by
  rcases Nat.lt_or_ge input.length 20 with short | long
  · cases (exec_parse_tooShort short s).symm.trans h
    cases hst
  by_cases checksum : chkZ s.params.digestIntOrder input = storedChecksum input
  case neg =>
    cases (exec_parse_mismatch long checksum).symm.trans h
    cases hst
  rcases Nat.lt_or_ge input.length (20 + declaredPayload input) with truncated | whole
  · cases (exec_parse_truncated long checksum truncated).symm.trans h
    cases hst
  · exact ⟨long, checksum, whole⟩

/-- The packet that a PARSE ending with OK loads (R170). -/
theorem pkt_of_parse_ok {input : List Byte} {s t : State} (h : exec (.parse input) s = .next t)
    (hst : t.status = .ok) : t.pkt = some ((unpack input).sealed s.params.digestIntOrder) := by
  cases (exec_parse_passes (passesParse_of_ok h hst)).symm.trans h
  rfl

/-- A failure whose offset is a length that `IN_LEN` can hold (60_exceptions.md R201). -/
theorem raise_failsWith_length (st : Status) (e : Word) {n : Nat} (fits : n < 2 ^ 16) (s : State) :
    FailsWith (st.code.setWidth 32) e (BitVec.ofNat 32 n) (BitVec.ofNat 32 n) s
      (s.raise st e (BitVec.ofNat 32 n) (BitVec.ofNat 16 n)) := by
  have hoffset : (BitVec.ofNat 16 n).setWidth 32 = BitVec.ofNat 32 n :=
    BitVec.setWidth_ofNat_of_le_of_lt (by decide) fits
  have fails := raise_failsWith st e (BitVec.ofNat 32 n) (BitVec.ofNat 16 n) s
  rwa [hoffset] at fails

/-- Settles O40: PARSE fails at the length check. -/
theorem shortInputIsTooShort : Obligations.ShortInputIsTooShort :=
  fun s _ short => ⟨_, exec_parse_tooShort short s,
    raise_failsWith_length .tooShort 20 (short.trans (by decide)) s⟩

/-- Settles O41: PARSE fails at the checksum check, before `data_offset` is read. -/
theorem wrongChecksumIsMismatch : Obligations.WrongChecksumIsMismatch :=
  fun s _ _ long mismatch => ⟨_, exec_parse_mismatch long mismatch,
    raise_failsWith .checksumMismatch _ _ 14 s⟩

/-- Settles O42: PARSE fails at the last check, for the payload's length. -/
theorem shortPayloadIsTruncated : Obligations.ShortPayloadIsTruncated := by
  intro s input hwf long checksum truncated
  obtain ⟨-, fits⟩ := hwf
  exact ⟨_, exec_parse_truncated long checksum truncated,
    raise_failsWith_length .truncatedPayload _ fits s⟩

/-- `be16` as a number (00_scope.md R8). -/
theorem be16_toNat (x y : Byte) : (be16 x y).toNat = 256 * x.toNat + y.toNat := by
  rw [be16, toNat_append_add]
  omega

/-- `be32` as a number (00_scope.md R8). -/
theorem be32_toNat (w x y z : Byte) :
    (be32 w x y z).toNat = 2 ^ 24 * w.toNat + 2 ^ 16 * x.toNat + 256 * y.toNat + z.toNat := by
  simp only [be32, toNat_append_add]
  omega

/-- `frequency` is the top five bits of byte 12 (30_encoding.md R72). -/
theorem frequencyOf_toNat (b : Byte) : (frequencyOf b).toNat = b.toNat / 8 := by
  have := b.isLt
  rw [frequencyOf, toNat_field]
  omega

/-- Settles O43: every field is the number at its place in the input, and the packet is sealed. -/
theorem parseLoadsPacket : Obligations.ParseLoadsPacket := by
  intro s input _ long checksum whole
  exact ⟨_, _, exec_parse_passes ⟨long, checksum, whole⟩, rfl, be16_toNat _ _, be16_toNat _ _,
    be32_toNat _ _ _ _, be32_toNat _ _ _ _, frequencyOf_toNat _, rfl, rfl, rfl, rfl, be32_toNat _ _ _ _,
    rfl, rfl, complete_endsOk _,
    complete_keepsOthers fun _ hr => peek_loadPacket _ s (Bool.eq_false_of_not_eq_true hr)⟩

/-- The packet a buffer holds, sealed, has the checksum of its own bytes (42_parser.md R174). -/
theorem unpack_sealed_checksum (o : DigestIntOrder) {input : List Byte}
    (whole : 20 + declaredPayload input ≤ input.length) :
    ((unpack input).sealed o).checksum = chkZ o (input.take (20 + declaredPayload input)) := by
  rw [← ser_unpack whole, chkZ, zeroedCopy_ser]
  rfl

/-- Settles O44: without trailing bytes the packet's own bytes are the input, which passed the checksum check. -/
theorem parsedChecksumCoversOwnBytes : Obligations.ParsedChecksumCoversOwnBytes := by
  intro s t input h hst
  have passes := passesParse_of_ok h hst
  have own := unpack_sealed_checksum s.params.digestIntOrder passes.whole
  refine ⟨_, pkt_of_parse_ok h hst, own, fun exactLength => ?_⟩
  have hown : input.take (20 + declaredPayload input) = input := List.take_of_length_le exactLength.le
  rw [own, hown]
  exact passes.checksum

/-- Byte 13 of a packet's bytes declares the payload, whatever follows them (30_encoding.md R75). -/
theorem declaredPayload_append {packet : List Byte} (long : 20 ≤ packet.length) (trail : List Byte) :
    declaredPayload (packet ++ trail) = declaredPayload packet := by
  have hbyte : byteAt (packet ++ trail) 13 = byteAt packet 13 :=
    List.getD_append packet trail 0 13 (by omega)
  rw [declaredPayload, hbyte, declaredPayload]

/-- A buffer holds the packet of its own bytes (42_parser.md R175). -/
theorem unpack_take {input : List Byte} (whole : 20 + declaredPayload input ≤ input.length) :
    unpack (input.take (20 + declaredPayload input)) = unpack input := by
  have hlen : (unpack input).payload.length = 4 * (unpack input).dataOffset.toNat :=
    (unpack_wellShaped .padZero whole).padded rfl
  rw [← ser_unpack whole, unpack_ser hlen]

/-- The bytes after those of a packet do not affect what the buffer holds (42_parser.md R175). -/
theorem unpack_append {packet : List Byte} (long : 20 ≤ packet.length)
    (own : packet.length = 20 + declaredPayload packet) (trail : List Byte) :
    unpack (packet ++ trail) = unpack packet := by
  have hdeclared : 20 + declaredPayload (packet ++ trail) = packet.length := by
    rw [declaredPayload_append long, own]
  have htake := unpack_take (input := packet ++ trail) (by simp [hdeclared])
  rw [hdeclared, List.take_left] at htake
  exact htake.symm

/-- Settles O45: both inputs hold the packet of the bytes before their trails. -/
theorem parseIgnoresTrailingBytes : Obligations.ParseIgnoresTrailingBytes := by
  intro s t t' packet trail trail' long own h hst h' hst'
  rw [pkt_of_parse_ok h hst, pkt_of_parse_ok h' hst', unpack_append long own, unpack_append long own]

/-- What a CONSTRUCT that ends with OK and a SERIALIZE leave: a packet with a current checksum, the stored payload and
its `data_offset`, and its wire form in `OUT` (40_serializer.md R103, R110). -/
theorem construct_serialize {src dst : Half} {payload : List Byte} {seq ackn : Word} {freq : BitVec 5}
    {ack syn fin : Bool} {win : Word} {s a b : State}
    (ha : exec (.construct src dst payload seq ackn freq ack syn fin win) s = .next a) (hst : a.status = .ok)
    (hb : exec .serialize a = .next b) :
    ∃ p, a.pkt = some p ∧ b.out = ser p ∧ b.params = s.params ∧
      p.checksum = chkZ s.params.digestIntOrder (ser p) ∧
      p.payload = storedPayload s.params.unalignedPayload payload ∧
      p.dataOffset.toNat = (payload.length + 3) / 4 := by
  cases commandEnds_of_exec ha with
  | failed _ _ _ _ ne_ok => exact absurd hst ne_ok
  | fieldWritten hf => cases hf
  | constructed fits =>
    cases hb
    exact ⟨_, rfl, rfl, rfl, sealed_checksum _ _, rfl, ofNat_wordsCeil_toNat fits⟩

/-- The wire form of a packet with a current checksum is long enough and passes the checksum check (R104). -/
theorem ser_passes_checksum {o : DigestIntOrder} {p : Packet} (current : p.checksum = chkZ o (ser p)) :
    20 ≤ (ser p).length ∧ chkZ o (ser p) = storedChecksum (ser p) :=
  ⟨by simp, by rw [storedChecksum_ser, current]⟩

/-- The stored payload fills its words under PAD_ZERO, and where the operand does (40_serializer.md R102). -/
theorem storedPayload_fills {u : UnalignedPayload} {payload : List Byte}
    (h : u = .padZero ∨ payload.length % 4 = 0) :
    (storedPayload u payload).length = 4 * ((payload.length + 3) / 4) := by
  obtain rfl | aligned := h
  · exact storedPayload_length .padZero payload
  · rw [storedPayload_aligned u aligned]
    omega

/-- PARSE of the wire form of a packet that fills its words, with a current checksum, loads that packet
(42_parser.md R178). -/
theorem exec_parse_ser {s : State} {p : Packet}
    (current : p.checksum = chkZ s.params.digestIntOrder (ser p))
    (hlen : p.payload.length = 4 * p.dataOffset.toNat) :
    exec (.parse (ser p)) s = .next (s.loadPacket p).complete := by
  obtain ⟨long, checksum⟩ := ser_passes_checksum current
  have whole : 20 + declaredPayload (ser p) ≤ (ser p).length := by
    rw [declaredPayload_ser, ser_length, hlen]
  rw [exec_parse_passes ⟨long, checksum, whole⟩, unpack_ser hlen, sealed_eq_self current]

/-- Settles O46: the stored payload fills its words, so PARSE loads the packet that CONSTRUCT left. -/
theorem constructSerializeParseRoundTrip : Obligations.ConstructSerializeParseRoundTrip := by
  intro src dst payload seq ackn freq ack syn fin win s a b ha hst hb hfills
  obtain ⟨p, hpkt, hout, hparams, current, hpayload, hoffset⟩ := construct_serialize ha hst hb
  have hlen : p.payload.length = 4 * p.dataOffset.toNat := by
    rw [hpayload, storedPayload_fills hfills, hoffset]
  rw [← hparams] at current
  rw [hout, hpkt]
  exact ⟨_, exec_parse_ser current hlen, rfl, rfl⟩

/-- Settles O47: the wire form passes the checksum check and is shorter than `data_offset` declares. -/
theorem legacyUnalignedOutputIsTruncated : Obligations.LegacyUnalignedOutputIsTruncated := by
  intro src dst payload seq ackn freq ack syn fin win s a b ha hst hb hlegacy unaligned
  obtain ⟨p, -, hout, hparams, current, hpayload, hoffset⟩ := construct_serialize ha hst hb
  rw [hlegacy] at hpayload
  have hlen : (ser p).length = 20 + payload.length := by rw [ser_length, hpayload, storedPayload]
  have hdeclared : declaredPayload (ser p) = 4 * ((payload.length + 3) / 4) := by
    rw [declaredPayload_ser, hoffset]
  rw [← hparams] at current
  obtain ⟨long, checksum⟩ := ser_passes_checksum current
  have hexec := exec_parse_truncated long checksum (by omega)
  rw [hlen, hdeclared] at hexec
  rw [hout]
  exact ⟨hlen, _, hexec, rfl, rfl, rfl⟩

/-- The terminator packet in terms of its fields (42_parser.md R180). -/
theorem Packet.isTerminator_iff {p : Packet} :
    p.isTerminator = true ↔ p.ack = false ∧ p.syn = false ∧ p.fin = false ∧ p.payload.length = 0 := by
  simp [Packet.isTerminator, and_assoc]

theorem commandWrites_isTerminator_iff {r : Reg} :
    commandWrites .isTerminator r = true ↔ r = .resTerm ∨ r = .termValid := by
  cases r <;> simp [commandWrites]

/-- Settles O48: `RES_TERM` is the terminator predicate of the packet. -/
theorem terminatorIsBareEmptyPacket : Obligations.TerminatorIsBareEmptyPacket := by
  refine ⟨fun p l h => decode_cmd_eq (op := .isTerminator) h rfl rfl, fun s =>
    ⟨commandsWithoutPacketFail .isTerminator s rfl, fun p hp => ?_⟩⟩
  have hexec : exec .isTerminator s = .next (s.loadTerm p.isTerminator).complete :=
    congrArg Host.Outcome.next (needsPacket_some hp _)
  have hterm : (s.loadTerm p.isTerminator).complete.peek .resTerm = some (bitWord p.isTerminator) := rfl
  refine ⟨_, hexec, fun bare => ?_, fun notBare => ?_, rfl, complete_endsOk _,
    complete_keepsOthers fun r hr => peek_loadTerm _ s ?_⟩
  · rw [hterm, Packet.isTerminator_iff.mpr bare]
    rfl
  · rw [hterm, Bool.eq_false_of_not_eq_true (mt Packet.isTerminator_iff.mp notBare)]
    rfl
  · exact Bool.eq_false_of_not_eq_true (mt commandWrites_isTerminator_iff.mp hr)

end Sys2Proof.Machine
end

section
/-! SUPPORT. The obligations of 60_exceptions.md on how a command ends: the cause and the error context of each status
code (R201, R204, R206), and what a failure leaves unchanged (R203). -/

namespace Sys2Proof.Machine

/-- `EndsByCause s i t`: the command `i`, performed in the state `s`, can end in the state `t`, with OK or for one of
the causes of R204 with the error context of R201. -/
inductive EndsByCause (s : State) : Instr → State → Prop
  /-- The command ends with OK (60_exceptions.md R202). -/
  | completed {i : Instr} (u : State) : EndsByCause s i u.complete
  /-- The command needs a packet and there is none (40_serializer.md R101). -/
  | noPacket {i : Instr} (needs : needsPkt i = true) (hnone : s.pkt = none) :
    EndsByCause s i (s.raise .noPacket 0 0 0)
  /-- The payload operand is longer than the payload storage (R102). -/
  | payloadTooLong {i : Instr} (hi : i.opcode = .construct ∨ i.opcode = .setPayload)
      (long : 1020 < i.inputLength) :
    EndsByCause s i (s.raise .payloadTooLong 1020 (BitVec.ofNat 32 i.inputLength) 1020)
  /-- PARSE of less than a header (42_parser.md R173). -/
  | tooShort {input : List Byte} (short : input.length < 20) :
    EndsByCause s (.parse input)
      (s.raise .tooShort 20 (BitVec.ofNat 32 input.length) (BitVec.ofNat 16 input.length))
  /-- PARSE of bytes that carry another checksum than their own (R171). -/
  | checksumMismatch {input : List Byte} (long : 20 ≤ input.length)
      (mismatch : chkZ s.params.digestIntOrder input ≠ storedChecksum input) :
    EndsByCause s (.parse input)
      (s.raise .checksumMismatch ((chkZ s.params.digestIntOrder input).setWidth 32)
        ((storedChecksum input).setWidth 32) 14)
  /-- PARSE of bytes that end before the payload they declare does (R172). -/
  | truncatedPayload {input : List Byte} (long : 20 ≤ input.length)
      (checksum : chkZ s.params.digestIntOrder input = storedChecksum input)
      (truncated : input.length < 20 + declaredPayload input) :
    EndsByCause s (.parse input)
      (s.raise .truncatedPayload (BitVec.ofNat 32 (20 + declaredPayload input))
        (BitVec.ofNat 32 input.length) (BitVec.ofNat 16 input.length))

/-- The check for a packet fails with NO_PACKET, or leaves the ending to the rest of the command (R101). -/
theorem endsByCause_needsPacket {s : State} {i : Instr} {k : Packet → State} (needs : needsPkt i = true)
    (hk : ∀ p, EndsByCause s i (k p)) : EndsByCause s i (needsPacket s k) := by
  cases hp : s.pkt with
  | none =>
    rw [needsPacket_none hp]
    exact .noPacket needs hp
  | some p =>
    rw [needsPacket_some hp]
    exact hk p

/-- The length check of a payload operand fails with PAYLOAD_TOO_LONG, or the command ends with OK (R102). -/
theorem endsByCause_checkPayload (s u : State) {i : Instr}
    (hi : i.opcode = .construct ∨ i.opcode = .setPayload) :
    EndsByCause s i (checkPayload (inputOf i) s u.complete) := by
  rcases Nat.lt_or_ge 1020 (inputOf i).length with long | fits
  · rw [checkPayload_tooLong long]
    rw [inputOf_length] at long ⊢
    exact .payloadTooLong hi long
  · rw [checkPayload_fits fits]
    exact .completed u

/-- PARSE ends at the first of its checks that fails, or with OK (42_parser.md R176, 60_exceptions.md R206). -/
theorem execParse_endsByCause (input : List Byte) (s : State) :
    ∃ t, exec (.parse input) s = .next t ∧ EndsByCause s (.parse input) t := by
  rcases Nat.lt_or_ge input.length 20 with short | long
  · exact ⟨_, exec_parse_tooShort short s, .tooShort short⟩
  by_cases checksum : chkZ s.params.digestIntOrder input = storedChecksum input
  case neg => exact ⟨_, exec_parse_mismatch long checksum, .checksumMismatch long checksum⟩
  rcases Nat.lt_or_ge input.length (20 + declaredPayload input) with truncated | whole
  · exact ⟨_, exec_parse_truncated long checksum truncated, .truncatedPayload long checksum truncated⟩
  · exact ⟨_, exec_parse_passes ⟨long, checksum, whole⟩, .completed _⟩

/-- Every command ends with OK or for a cause of its own (R204). -/
theorem exec_endsByCause (i : Instr) (s : State) : ∃ t, exec i s = .next t ∧ EndsByCause s i t := by
  cases i with
  | construct => exact ⟨_, rfl, endsByCause_checkPayload s _ (.inl rfl)⟩
  | calcChecksum => exact ⟨_, rfl, .completed _⟩
  | parse input => exact execParse_endsByCause input s
  | setPayload =>
    exact ⟨_, rfl, endsByCause_needsPacket rfl fun _ => endsByCause_checkPayload s _ (.inr rfl)⟩
  | serialize | recalcChecksum | isTerminator | setSrcPort | setDstPort | setSeq | setAckNumber
  | setFrequency | setAckFlag | setSynFlag | setFinFlag | setWindow =>
    exact ⟨_, rfl, endsByCause_needsPacket rfl fun _ => .completed _⟩

/-- What a command answers is one of the ways it can end. -/
theorem endsByCause_of_exec {i : Instr} {s t : State} (h : exec i s = .next t) : EndsByCause s i t := by
  obtain ⟨t', ht', hends⟩ := exec_endsByCause i s
  cases ht'.symm.trans h
  exact hends

/-- Settles O51, by the causes for which a command can end. -/
theorem commandsRaiseOnlyTheirCauses : Obligations.CommandsRaiseOnlyTheirCauses := by
  intro i s t h
  cases endsByCause_of_exec h with
  | completed => exact ⟨nofun, nofun, nofun, nofun, nofun, nofun⟩
  | noPacket needs hnone => exact ⟨fun _ => ⟨needs, hnone⟩, nofun, nofun, nofun, nofun, nofun⟩
  | payloadTooLong hi long => exact ⟨nofun, fun _ => ⟨hi, long⟩, nofun, nofun, nofun, nofun⟩
  | tooShort short => exact ⟨nofun, nofun, fun _ => ⟨rfl, short⟩, nofun, nofun, nofun⟩
  | checksumMismatch long mismatch =>
    exact ⟨nofun, nofun, nofun, fun _ => ⟨rfl, long, mismatch⟩, nofun, nofun⟩
  | truncatedPayload long checksum truncated =>
    exact ⟨nofun, nofun, nofun, nofun, fun _ => ⟨rfl, long, checksum, truncated⟩, nofun⟩

/-- A failure writes its code and its error context (R201, R203). -/
theorem FailsWith.endsWith {code e a o : Word} {s t : State} (h : FailsWith code e a o s t) :
    EndsWith code e a o t := by
  obtain ⟨hends, -⟩ := h
  exact hends

/-- Settles O23: a command's error context by the cause it ends for, and ILLEGAL_COMMAND by the decoder. -/
theorem errorContextOfEachStatus : Obligations.ErrorContextOfEachStatus := by
  refine ⟨fun i s t hwf h => ?_, fun s t rest he hi hill h => ?_⟩
  · obtain ⟨-, fits⟩ := hwf
    cases endsByCause_of_exec h with
    | completed u => exact ⟨fun _ => complete_endsOk u, nofun, nofun, nofun, nofun, nofun⟩
    | tooShort =>
      exact ⟨nofun, fun _ => (raise_failsWith_length .tooShort _ fits s).endsWith,
        nofun, nofun, nofun, nofun⟩
    | checksumMismatch =>
      exact ⟨nofun, nofun, fun _ => (raise_failsWith .checksumMismatch _ _ _ s).endsWith,
        nofun, nofun, nofun⟩
    | truncatedPayload =>
      exact ⟨nofun, nofun, nofun, fun _ => (raise_failsWith_length .truncatedPayload _ fits s).endsWith,
        nofun, nofun⟩
    | noPacket =>
      exact ⟨nofun, nofun, nofun, nofun, fun _ => (raise_failsWith .noPacket _ _ _ s).endsWith, nofun⟩
    | payloadTooLong =>
      exact ⟨nofun, nofun, nofun, nofun, nofun,
        fun _ => (raise_failsWith .payloadTooLong _ _ _ s).endsWith⟩
  · obtain ⟨illegal, -⟩ := illegalCommandEndsWithStatus s rest he hi
    obtain ⟨t', ht', fails⟩ := illegal hill
    cases ht'.symm.trans h
    exact fails.endsWith

/-- Settles O50: a command that does not end with OK ends with `raise`, which keeps the other registers. -/
theorem failureIsExact : Obligations.FailureIsExact := by
  refine ⟨raise_failsWith, fun i s t h hst => ⟨peek_busy_eq_zero.mpr (exec_inProgress_none h), ?_⟩⟩
  cases commandEnds_of_exec h with
  | failed st e a o => exact fun _ _ hstatus hbusy => peek_raise st e a o s hstatus hbusy
  | constructed | parsed | payloadSet | fieldWritten | serialized | checksummed | judged =>
    exact absurd rfl hst

end Sys2Proof.Machine
end

section
/-! SUPPORT. The obligation of 60_exceptions.md on the steps that can stop: only a read by the host faults, and no step
is refused (R202, R203, R207, R208). -/

namespace Sys2Proof.Machine

/-- A completion completes, with a command in progress or without one (70_reset_and_hazards.md R238, log 12). -/
theorem onComplete_total (s : State) : ∃ t, s.onComplete = .next t := by
  cases hb : s.inProgress with
  | none => exact ⟨s, onComplete_idle hb⟩
  | some c =>
    obtain ⟨t, ht, -⟩ := finish_inProgress_none c s
    exact ⟨t, (onComplete_busy hb).trans ht⟩

/-- Every event but the host's read and ROUNDTRIP's copy completes. -/
theorem handle_total (s : State) {e : Event} (hread : ∀ r, e ≠ .read r) (hcopy : e ≠ .parseOut) :
    ∃ t, s.handle e = .next t := by
  cases e with
  | command =>
    cases hb : s.inProgress with
    | none =>
      obtain ⟨t, ht⟩ := perform_total s.lines s
      exact ⟨t, (onCommand_idle hb).trans ht⟩
    | some c => exact ⟨s, onCommand_busy hb⟩
  | accept =>
    cases hb : s.inProgress with
    | none => exact ⟨_, onAccept_idle hb⟩
    | some c => exact ⟨s, onAccept_busy hb⟩
  | complete => exact onComplete_total s
  | drive | reset => exact ⟨_, rfl⟩
  | read r => exact absurd rfl (hread r)
  | parseOut => exact absurd rfl hcopy

/-- A host's read faults or completes (10_state.md R33). -/
theorem hostRead_ne_refused (r : Reg) (s : State) (why : Refusal) : s.hostRead r ≠ .refused why := by
  obtain hr | hr | ⟨w, -, hr⟩ | hr := hostRead_cases r s <;> rw [hr] <;> nofun

/-- ROUNDTRIP's copy faults or completes (30_encoding.md R87, 10_state.md R33). -/
theorem onParseOut_ne_refused (s : State) (why : Refusal) : s.onParseOut ≠ .refused why := by
  unfold State.onParseOut
  split
  · split <;> nofun
  · nofun

/-- No event is refused. -/
theorem handle_ne_refused (s : State) (e : Event) (why : Refusal) : s.handle e ≠ .refused why := by
  by_cases hread : ∃ r, e = .read r
  · obtain ⟨r, rfl⟩ := hread
    exact hostRead_ne_refused r s why
  by_cases hcopy : e = .parseOut
  · rw [hcopy]
    exact onParseOut_ne_refused s why
  · obtain ⟨t, ht⟩ := handle_total s (not_exists.mp hread) hcopy
    rw [ht]
    nofun

/-- Settles O17: every other event completes, as does the step with no event left, and no event is refused. -/
theorem onlyReadsFault : Obligations.OnlyReadsFault := by
  refine ⟨fun s hread hcopy => ?_, fun s why => ?_⟩
  · cases he : s.events with
    | nil =>
      rw [step_quiet he]
      exact onComplete_total s
    | cons e rest =>
      rw [step_event he]
      exact handle_total _ (fun r h => hread r rest (h ▸ he)) fun h => hcopy rest (h ▸ he)
  · rw [step_eq_handle]
    exact handle_ne_refused _ _ why

end Sys2Proof.Machine
end

section
/-! SUPPORT. The obligations of 70_reset_and_hazards.md: reset and the parameters (R230, R231), and what the host does
while `BUSY = 1`: a change of the inputs, a presented command and a read (R233, R234, R236). -/

namespace Sys2Proof.Machine

/-- Any `PKT`, with a packet or without one, changes no register outside the packet (10_state.md R26). -/
theorem peek_withPkt (s : State) (pkt : Option Packet) {r : Reg} (h : r.inPacket = false) :
    State.peek { s with pkt := pkt } r = s.peek r := by
  cases r with
  | status | busy | errExpected | errActual | errOffset | out | outLen | outValid | resChk | chkValid
  | resTerm | termValid => rfl
  | _ => cases h

/-- A command has the opcode it was selected by, whatever its operands (30_encoding.md R82). -/
theorem opcode_operands (op : Opcode) (l : Inputs) : (op.operands l).opcode = op := by
  cases op <;> rfl

/-- An update of the packet, if there is one, changes no register that the command of the fields it changes does not
write (R26). `FieldsByWriter` sees only the opcode of its command, so any operands do. -/
theorem peek_mapPkt (s : State) {op : Opcode} {f : Packet → Packet}
    (hf : ∀ p, FieldsByWriter (op.operands .zero) p (f p)) {r : Reg} (h : commandWrites op r = false) :
    State.peek { s with pkt := s.pkt.map f } r = s.peek r := by
  cases hp : s.pkt with
  | none => rw [Option.map_none, ← hp]
  | some p => exact peek_loadPacket_of_fieldsByWriter hp (hf p) ((opcode_operands op .zero).symm ▸ h)

/-- The free values of a race stand in registers that the rule of the command writes (70_reset_and_hazards.md R233). -/
theorem peek_raceWrites (draw : Nat) (s : State) {op : Opcode} {r : Reg} (h : commandWrites op r = false) :
    (raceWrites draw s op).peek r = s.peek r := by
  cases op with
  | construct | parse => exact peek_withPkt s _ h
  | serialize =>
    cases r with
    | out | outLen | outValid => cases h
    | _ => rfl
  | calcChecksum =>
    cases r with
    | resChk | chkValid => cases h
    | _ => rfl
  | isTerminator =>
    cases r with
    | resTerm | termValid => cases h
    | _ => rfl
  | recalcChecksum | setSrcPort | setDstPort | setSeq | setAckNumber | setFrequency | setAckFlag
  | setSynFlag | setFinFlag | setWindow | setPayload =>
    exact peek_mapPkt s (fun p => by simp [FieldsByWriter, Opcode.operands, Instr.opcode]) h

/-- A race leaves every register that the rule of the command may not write, but for `BUSY` (R233). -/
theorem peek_raceOutcome {l : Inputs} (s : State) {r : Reg} (h : mayWrite l r = false) (hb : r ≠ .busy) :
    (s.raceOutcome l).peek r = s.peek r := by
  obtain ⟨hstatus, -⟩ := Bool.or_eq_false_iff.mp h
  obtain ⟨-, hrace⟩ | ⟨op, hop, hrace⟩ := raceOutcome_cases l s <;> rw [hrace]
  · exact peek_raceStatus s hstatus hb
  · rw [mayWrite_of_ofWord hop, hstatus, Bool.false_or] at h
    exact (peek_raceWrites s.draws s.raceStatus h).trans (peek_raceStatus s hstatus hb)

/-- Any change of the lines, none of whose bytes are past the end of `IN`, marks the command in progress as raced
(R233, log 10). -/
theorem drive_changed_inProgress {s : State} {c : InProgress} {l : Inputs} (hc : s.inProgress = some c)
    (fits : l.inBuf.length ≤ s.params.maxInBytes) (changed : l ≠ s.lines) :
    (s.drive l).inProgress = some { c with raced := true } := by
  rw [State.drive_inProgress, hc, List.take_of_length_le fits]
  simp [changed]

/-- A raced command completes as a race (R233). -/
theorem finish_raced {c : InProgress} (raced : c.raced = true) (s : State) :
    s.finish c = .next (s.raceOutcome c.inputs) := by
  simp [State.finish, raced]

/-- Settles O11: driving the lines writes no register, and a race those of its command and `BUSY`. -/
theorem racedCommandKeepsUnwrittenRegisters : Obligations.RacedCommandKeepsUnwrittenRegisters := by
  refine ⟨fun s rest c l he hc fits changed => ?_, fun s rest c he hc raced => ?_⟩
  · exact ⟨_, step_event he, drive_changed_inProgress (s := { s with events := rest }) hc fits changed,
      fun r => (peek_drive l { s with events := rest } r).trans (peek_lines_events s s.lines rest r)⟩
  · have hstep : step s = .next (State.raceOutcome c.inputs { s with events := rest }) :=
      calc
        step s = State.onComplete { s with events := rest } := step_event he
        _ = State.finish c { s with events := rest } := onComplete_busy hc
        _ = _ := finish_raced raced _
    obtain ⟨-, -, hidle⟩ := raceOutcome_frame c.inputs { s with events := rest }
    exact ⟨_, hstep, peek_busy_eq_zero.mpr hidle, fun r hr hb =>
      (peek_raceOutcome { s with events := rest } hr hb).trans (peek_lines_events s s.lines rest r)⟩

/-- While busy, a read of a register that the command in progress may not write, that exists and holds a value,
returns it (R236). -/
theorem hostRead_unwritten {s : State} {c : InProgress} {r : Reg} {w : Word} (hr : r.isPresent = true)
    (hc : s.inProgress = some c) (hw : mayWrite c.inputs r = false) (h : s.peek r = some w) :
    s.hostRead r = .next { s with readout := some w } := by
  simp [State.hostRead, hr, hc, hw, h]

/-- Settles O14: within the capacities, a register that holds a value is present, and its read returns it. -/
theorem busyReadOfUnwrittenRegister : Obligations.BusyReadOfUnwrittenRegister := by
  intro s rest c r w he hc hs hw h
  have hread := hostRead_unwritten (s := { s with events := rest }) (isPresent_of_peek hs h) hc hw
    ((peek_lines_events s s.lines rest r).trans h)
  exact ⟨_, (step_event he).trans hread, rfl⟩

/-- Reset leaves every register as in the reset state (R230). -/
theorem peek_applyReset (s : State) (r : Reg) : s.applyReset.peek r = State.reset.peek r := by
  cases r <;> rfl

/-- Settles O19: reset writes every register, ends the command in progress and keeps the lines. -/
theorem resetFromAnyState : Obligations.ResetFromAnyState :=
  fun _ _ he => ⟨_, step_event he, peek_applyReset _, rfl, rfl⟩

/-- Settles O20: whatever event the step takes keeps the parameters. -/
theorem parametersNeverChange : Obligations.ParametersNeverChange :=
  fun _ _ h => (eventLeads_of_step h).params_eq

/-- Settles O8: while a command is in progress, neither event that presents one is accepted. -/
theorem commandWhileBusyHasNoEffect : Obligations.CommandWhileBusyHasNoEffect := by
  intro s rest he hb
  obtain ⟨c, hc⟩ := peek_busy_eq_one.mp hb
  obtain he | he := he
  · exact (step_event he).trans (onCommand_busy (s := { s with events := rest }) hc)
  · exact (step_event he).trans (onAccept_busy (s := { s with events := rest }) hc)

end Sys2Proof.Machine
end
